-- ==== Sys2Proof/Word.lean ====
section
/-! DEFINITION. The words of the model: bytes on the wire, node addresses, jacket numbers, serial numbers. -/
namespace Sys2Proof

/-- One byte of a frame (spec 01, section 1.1). -/
abbrev Byte := BitVec 8

/-- A cylinder's serial number, 0 to 4,294,967,295 (spec 00, Numbers and Ranges). It is compared and
carried, never wrapped, so it is a number. -/
abbrev Serial := Nat

/-- A node address latched from the six straps (R18). -/
abbrev NodeAddress := BitVec 6

/-- A jacket number, 0 to 7 (R92). -/
abbrev JacketNo := Fin 8

end Sys2Proof
end

