-- ==== Sys2Proof/Syntax.lean ====
section
/-! DEFINITION. The commands of the block: one constructor for each row of spec/opcode_table.json, with its operands. -/
namespace Sys2Proof

/-- What a received frame carries beside its kind, length, payload and CRC: destination, source and sequence, and the
trailer whose lowest bit is the taken mark (01, section 1.1). -/
structure Header where
  destination : Byte
  source : Byte
  sequence : Byte
  trailer : Byte
deriving DecidableEq, Repr

/-- The commands of the A8J (log entry 5 says how a row's operands are chosen). A station report and a management request
come as the frame that carries them: its header and the bytes of its payload that the row's name does not already fix. -/
inductive Instr
  /-- POWER_ON (R18): RESET is released with these straps, NA0 the least significant bit, and this HOLD level. -/
  | powerOn (straps : NodeAddress) (holdAsserted : Bool)
  /-- HOLD_ASSERTED (R172). -/
  | holdAsserted
  /-- HOLD_RELEASED (R173). -/
  | holdReleased
  /-- RX_LOCK_LOST (R13). -/
  | rxLockLost
  /-- RX_LOCK_REGAINED (R13). -/
  | rxLockRegained
  /-- RING_DOWN (R14). -/
  | ringDown
  /-- RING_UP (R13). -/
  | ringUp
  /-- FRAME_DISCARDED (R1): the bytes between a frame's start and end symbols. -/
  | frameDiscarded (bytes : List Byte)
  /-- FORWARDED_FRAME (R2): the bytes between a frame's start and end symbols. -/
  | forwardedFrame (bytes : List Byte)
  /-- RETURN_MATCHING (R11): a frame of the part's own comes back. Its source is the latched node address. -/
  | returnMatching (destination kind sequence : Byte) (payload : List Byte) (trailer : Byte)
  /-- MANAGE_NOT_TAKEN (R4): a MANAGE frame with this payload. -/
  | manageNotTaken (header : Header) (payload : List Byte)
  /-- MANAGE_UNSUPPORTED (R181): a MANAGE frame with this payload. -/
  | manageUnsupported (header : Header) (payload : List Byte)
  /-- ENTRY_TAG (R44): a frame of kind ENTRY TAG. -/
  | entryTag (header : Header) (payload : List Byte)
  /-- MASS_READING (R63). -/
  | massReading (header : Header) (payload : List Byte)
  /-- VISUAL_FINDINGS (R69). -/
  | visualFindings (header : Header) (payload : List Byte)
  /-- STAMP_REPORT (R161). -/
  | stampReport (header : Header) (payload : List Byte)
  /-- SCRAP_REPORT (R164). -/
  | scrapReport (header : Header) (payload : List Byte)
  /-- JACKET_ARRIVAL (R85). -/
  | jacketArrival (header : Header) (payload : List Byte)
  /-- JACKET_SAMPLE (R99). -/
  | jacketSample (header : Header) (payload : List Byte)
  /-- JACKET_CLEAR (R114). -/
  | jacketClear (header : Header) (payload : List Byte)
  /-- TRANSMITTER_START (R9). -/
  | transmitterStart
  /-- TRANSMISSION_COMPLETE (R3). -/
  | transmissionComplete
  /-- RETURN_TIMEOUT (R12). -/
  | returnTimeout
  /-- BLOCK_TIME_LIMIT (R108). -/
  | blockTimeLimit (jacket : JacketNo)
  /-- DWELL_END (R106). -/
  | dwellEnd (jacket : JacketNo)
  /-- SAMPLE_AGE_LIMIT (R109). -/
  | sampleAgeLimit (jacket : JacketNo)
  /-- VENT_LIMIT (R112). -/
  | ventLimit (jacket : JacketNo)
  /-- TABLE_WRITE (R36): a MANAGE frame of request kind 1 and the request fields after the kind. -/
  | tableWrite (header : Header) (fields : List Byte)
  /-- TABLE_READ (R38): request kind 2. -/
  | tableRead (header : Header) (fields : List Byte)
  /-- START (R170): request kind 3, command code 1, and the bytes after the code (none, if well formed). -/
  | start (header : Header) (fields : List Byte)
  /-- STOP (R171): command code 2. -/
  | stop (header : Header) (fields : List Byte)
  /-- RESUME (R173): command code 3. -/
  | resume (header : Header) (fields : List Byte)
  /-- RESTART (R174): command code 4. -/
  | restart (header : Header) (fields : List Byte)
  /-- SET_DATE (R175): command code 5. -/
  | setDate (header : Header) (fields : List Byte)
  /-- SET_CONFIG (R176): command code 6. -/
  | setConfig (header : Header) (fields : List Byte)
  /-- JACKET_ENABLE (R118): command code 7. -/
  | jacketEnable (header : Header) (fields : List Byte)
  /-- JACKET_DISABLE (R119): command code 8. -/
  | jacketDisable (header : Header) (fields : List Byte)
  /-- JACKET_ABORT (R117): command code 9. -/
  | jacketAbort (header : Header) (fields : List Byte)
  /-- RELEASE (R60): command code 10. -/
  | release (header : Header) (fields : List Byte)
  /-- SET_NOTICE_ENABLES (R180): command code 11. -/
  | setNoticeEnables (header : Header) (fields : List Byte)
  /-- TEST_NOTICE (R180): command code 12. -/
  | testNotice (header : Header) (fields : List Byte)
  /-- JACKET_VIEW (R186): request kind 4, with every field after the kind, the mode first. -/
  | jacketView (header : Header) (fields : List Byte)
  /-- FROZEN_FIRST (R187): request kind 4, mode 1, and the fields after the mode. -/
  | frozenFirst (header : Header) (fields : List Byte)
  /-- FROZEN_NEXT (R187): request kind 4, mode 2, and the fields after the mode. -/
  | frozenNext (header : Header) (fields : List Byte)
  /-- RECORD_VIEW (R184): request kind 5. -/
  | recordView (header : Header) (fields : List Byte)
  /-- REGISTER_LIST (R185): request kind 6. -/
  | registerList (header : Header) (fields : List Byte)
  /-- COMMAND_UNSUPPORTED (R183): request kind 3, with every field after the kind, the command code first if there is one. -/
  | commandUnsupported (header : Header) (fields : List Byte)
deriving DecidableEq, Repr

end Sys2Proof
end

