-- ==== Sys2Proof/Config.lean ====
section
/-! DEFINITION. The sizes and limits the spec fixes for every part, and the values the model had to choose for the reset
state. No value is left free: the spec leaves no result of a command open. -/
namespace Sys2Proof.Config

/-- The forward buffer holds up to 4 frames (R3). -/
def forwardCapacity : Nat := 4
/-- The insertion queue holds up to 16 frames (R6). -/
def queueCapacity : Nat := 16
/-- NORMAL frames occupy at most 12 entries of the insertion queue (R6). -/
def normalCapacity : Nat := 12
/-- The outstanding list holds up to 16 entries (R11). -/
def outstandingCapacity : Nat := 16
/-- The cylinder register holds at most 64 records (R40). -/
def registerCapacity : Nat := 64
/-- The streak count at which a waiting own frame is sent before a forwarded one (R9). -/
def streakLimit : Nat := 4
/-- A frame's payload holds 0 to 200 bytes (R1 and the frame layout of 01, section 1.1). -/
def maxPayload : Nat := 200
/-- Loss of lock that takes the ring DOWN, in ms (R13). -/
def lossTime : Nat := 10
/-- Continuous lock that brings the ring UP, in ms (R13). -/
def lockTime : Nat := 100
/-- The vent limit of RECOVERING: 120 s, in ms (R112). -/
def ventLimit : Nat := 120000
/-- A chain holds 1 to 12 blocks (R30). -/
def maxChain : Nat := 12
/-- Top of a 16-bit quantity on the wire, where results saturate (R103, R126). -/
def top16 : Nat := 65535

/-- The node address of the reset state. DESIGN CHOICE (log entry 1): the straps are outside the part, and 9 is the
address of the example of 01, "Effect of a Lost Frame on the Outstanding List". -/
def resetNodeAddress : Nat := 9

end Sys2Proof.Config
end

