-- ==== Sys2Proof/Machine/State.lean ====
section
/-! DEFINITION. The state of the A8J: every table, register, queue, counter and mark the spec gives it, as plain data. -/
namespace Sys2Proof.Machine

/-! ### Dates and tables (chapter 2) -/

/-- Size class of a cylinder type and of a jacket (R20, R32). -/
inductive SizeClass
  | small
  | large
deriving DecidableEq, Repr

/-- A plant date: year 2000 to 2099, month, day (00, Plant Date). -/
structure Date where
  year : Nat
  month : Nat
  day : Nat
deriving DecidableEq, Repr

/-- The reference part of a type entry (R20): expected total expansion and tolerance, in counts. -/
structure RefPart where
  expected : Nat
  tolerance : Nat
deriving DecidableEq, Repr

/-- One entry of the type table, and the specification copy a record takes of it (R20, R22). -/
structure TypeEntry where
  valid : Bool
  size : SizeClass
  ptest : Nat
  window : Nat
  overpressure : Nat
  ratioLimit : Nat
  ree : Option Nat
  massLoss : Nat
  massGain : Nat
  interval : Nat
  programStart : Nat
  suffix : Option Byte
  reference : Option RefPart
deriving DecidableEq, Repr

/-- An invalid entry: every numeric field 0, SMALL, every optional field absent (R20). -/
def TypeEntry.invalid : TypeEntry :=
  { valid := false, size := .small, ptest := 0, window := 0, overpressure := 0, ratioLimit := 0, ree := none,
    massLoss := 0, massGain := 0, interval := 0, programStart := 0, suffix := none, reference := none }

/-- One owner window (R23). -/
structure Window where
  valid : Bool
  base : Nat
  k : Nat
  owner : Nat
  returnCondemned : Bool
deriving DecidableEq, Repr

/-- An invalid window: base 0, k 0, owner 0, flag clear (R23). -/
def Window.invalid : Window := { valid := false, base := 0, k := 0, owner := 0, returnCondemned := false }

/-- The action of a defect code (R26), in the order of R182. -/
inductive Action
  | accept
  | rework
  | condemn
  | manual
deriving DecidableEq, Repr

/-- The kinds of step block (R27), in the order of R182. -/
inductive BlockKind
  | zero
  | ramp
  | hold
  | vent
  | dwell
deriving DecidableEq, Repr

/-- One step block of the program store (R27). -/
structure Block where
  kind : BlockKind
  chain : Bool
  target : Nat
  rate : Nat
  duration : Nat
  samples : Nat
  maxRecords : Nat
  band : Nat
  timeExp : Nat
  reading : Bool
  leak : Option Nat
deriving DecidableEq, Repr

/-- The power-on block: a DWELL with every field 0, clear or absent (R27). -/
def Block.powerOn : Block :=
  { kind := .dwell, chain := false, target := 0, rate := 0, duration := 0, samples := 0, maxRecords := 0, band := 0,
    timeExp := 0, reading := false, leak := none }

/-- The role of a node in the station map (R32). -/
inductive Role
  | none
  | master
  | entry
  | scale
  | visual
  | router
  | jacket (number : JacketNo) (size : SizeClass)
  | stamp
  | scrap
deriving DecidableEq, Repr

/-- The Table Store: the five tables (chapter 2). -/
structure Tables where
  types : Vector TypeEntry 128
  windows : Vector Window 16
  defects : Vector Action 256
  blocks : Vector Block 96
  stations : Vector Role 64
deriving DecidableEq, Repr

/-- The tables after power-on (R20, R23, R26, R27, R32). -/
def Tables.powerOn : Tables :=
  { types := Vector.replicate 128 .invalid, windows := Vector.replicate 16 .invalid,
    defects := Vector.replicate 256 .manual, blocks := Vector.replicate 96 .powerOn,
    stations := Vector.replicate 64 .none }

/-! ### Results and verdicts (chapters 4 and 7) -/

/-- Cause of a FAIL verdict (R41), in the order of R182. -/
inductive FailCause
  | massLoss
  | defect
  | overpressure
  | leak
  | permanent
  | elastic
deriving DecidableEq, Repr

/-- Cause of a MANUAL verdict (R41), in the order of R182. -/
inductive ManualCause
  | noTare
  | massGain
  | defect
  | program
  | secondInvalid
deriving DecidableEq, Repr

/-- Cause of a REFERENCE outcome (R131). -/
inductive ReferenceCause
  | inTolerance
  | outOfTolerance
deriving DecidableEq, Repr

/-- A record's verdict (R41). -/
inductive Verdict
  | pass
  | fail (cause : FailCause)
  | rework
  | manual (cause : ManualCause)
  | reference (cause : ReferenceCause)
deriving DecidableEq, Repr

/-- The counted causes of an INVALID result (R132). -/
inductive InvalidCause
  | leak
  | unstable
  | timeout
  | thermal
  | pressureWindow
  | noExpansion
deriving DecidableEq, Repr

/-- The causes a FAIL outcome of an evaluation can have (R129). -/
inductive EvalFail
  | overpressure
  | permanent
  | elastic
deriving DecidableEq, Repr

/-- The outcome of an evaluation with its cause (R129, R131). -/
inductive EvalOutcome
  | pass
  | fail (cause : EvalFail)
  | invalid (cause : InvalidCause)
  | reference (cause : ReferenceCause)
deriving DecidableEq, Repr

/-- The six figures of a TEST RESULT (R130). -/
structure Figures where
  z : Nat
  t : Nat
  ePerm : Nat
  ratio : Nat
  elastic : Nat
  pRead : Nat
deriving DecidableEq, Repr

/-- A record's last result: the fields of its latest TEST RESULT less the serial (R139). -/
structure LastResult where
  jacket : JacketNo
  attempt : Nat
  outcome : EvalOutcome
  figures : Figures
deriving DecidableEq, Repr

/-! ### Frames of the part's own (01, section 1.1) -/

/-- Destination of a GATE ORDER (01, section 1.1). -/
inductive GateDest
  | jacket (number : JacketNo)
  | stamp
  | scrap
  | fill
  | returnLane
  | manual
  | rework
  | reference
deriving DecidableEq, Repr

/-- A jacket command (R94): SET with target and rate, VENT, UNLOAD. -/
inductive Command
  | set (target rate : Nat)
  | vent
  | unload
deriving DecidableEq, Repr

/-- The order of an INFEED frame. -/
inductive InfeedOrder
  | hold
  | release
deriving DecidableEq, Repr

/-- The twelve notice classes in priority order (R177). -/
inductive NoticeClass
  | overpressure
  | lineHold
  | ringRestored
  | jacketFault
  | undelivered
  | calibration
  | manualDivert
  | duplicateSerial
  | strayReport
  | infeedHeld
  | programFault
  | lineStopped
deriving DecidableEq, Repr

/-- The reasons a reply can give (R181), in code order from 1. -/
inductive Reason
  | badTable
  | badIndex
  | badField
  | misaligned
  | overlap
  | badProgram
  | inUse
  | duplicateRole
  | busy
  | notMapped
  | lineState
  | noDate
  | noMap
  | ringDown
  | holdActive
  | notFound
  | noSnapshot
  | unsupported
deriving DecidableEq, Repr

/-- A REPLY: the request's source as destination, the request kind echoed, the reason of a refusal (absent when DONE),
and the data (R181). -/
structure Reply where
  destination : Nat
  kind : Nat
  reason : Option Reason
  data : List Byte
deriving DecidableEq, Repr

/-- Kind and payload of a frame the part makes. -/
inductive Body
  | infeed (order : InfeedOrder)
  | gate (serial : Serial) (destination : GateDest)
  | command (jacket : JacketNo) (command : Command)
  | stampOrder (serial : Serial) (marks : List Byte)
  | scrapOrder (serial : Serial)
  | testResult (serial : Serial) (result : LastResult)
  | notice (cls : NoticeClass) (count subject cause : Nat)
  | reply (reply : Reply)
deriving DecidableEq, Repr

/-- The owner of a frame (R6). `recordless` is a gate order that never had a record, with the serial the outstanding list
keeps for it (R10); `lost` is a frame whose owner has gone (R17, R58). -/
inductive Owner
  | record (slot : Nat)
  | jacket (number : JacketNo)
  | infeed
  | notice (cls : NoticeClass)
  | reply
  | recordless (serial : Serial)
  | lost
deriving DecidableEq, Repr

/-- One entry of the insertion queue (R6). Of a NOTICE it also holds what the hold purge gives back besides the frame's own fields (R179):
`clearedEnable` says that its placement cleared its class's one-shot enable, while SET NOTICE ENABLES has not been taken since;
`testMark` is the test mark its placement cleared. Both are false for any other frame. -/
structure QueueEntry where
  destination : Nat
  body : Body
  owner : Owner
  clearedEnable : Bool
  testMark : Bool
deriving DecidableEq, Repr

/-- One entry of the outstanding list (R10). `stands` is false once the order was removed or cancelled for its record while
it was outstanding (R84; log entry 9). -/
structure OutEntry where
  sequence : Nat
  start : Nat
  body : Body
  destination : Nat
  owner : Owner
  stands : Bool
deriving DecidableEq, Repr

/-- The downstream transmitter (R9): free, sending the head of the forward buffer, or sending an own frame, whose bytes it
holds. -/
inductive Transmitter
  | free
  | forwarding
  | own (bytes : List Byte)
deriving DecidableEq, Repr

/-- The ring status (R13). -/
inductive RingStatus
  | up
  | down
deriving DecidableEq, Repr

/-- The Ring Port (chapter 1). -/
structure RingPort where
  nodeAddress : NodeAddress
  status : RingStatus
  locked : Bool
  lockCount : Nat
  forward : List (List Byte)
  queue : List QueueEntry
  outstanding : List OutEntry
  transmitter : Transmitter
  streak : Nat
  sequence : Nat
  clock : Nat
deriving DecidableEq, Repr

/-- The Ring Port after power-on (R3, R6, R9, R10, R11, R13, R17). The receiver's lock and the time base start as log entries
2 and 26 say. -/
def RingPort.powerOn (address : NodeAddress) : RingPort :=
  { nodeAddress := address, status := .down, locked := false, lockCount := 0, forward := [], queue := [],
    outstanding := [], transmitter := .free, streak := 0, sequence := 0, clock := 0 }

/-! ### The Cylinder Register (chapter 3) -/

/-- The ten states of a record (R42), in the order of R182. -/
inductive RecordState
  | admitted
  | weighed
  | waiting
  | routed
  | testing
  | unloading
  | stamping
  | scrapping
  | leaving
  | manualHeld
deriving DecidableEq, Repr

/-- Why a record is MANUAL_HELD (R41). -/
inductive HeldCause
  | misroute
  | undelivered
  | jacketFault
  | stampStopped
  | scrapRefused
deriving DecidableEq, Repr

/-- An order a record can owe (R41). -/
inductive Order
  | gate (destination : GateDest)
  | stamp (marks : List Byte)
  | scrap
deriving DecidableEq, Repr

/-- One record of the Cylinder Register (R41). -/
structure Record where
  slot : Nat
  serial : Serial
  typeCode : Nat
  spec : TypeEntry
  owner : Option Nat
  returnCondemned : Option Bool
  tare : Nat
  lastYear : Nat
  lastMonth : Nat
  state : RecordState
  heldCause : Option HeldCause
  mass : Option Nat
  findings : Option (List Nat)
  jacket : Option JacketNo
  countedInvalids : Nat
  attempts : Nat
  verdict : Option Verdict
  verdictDate : Option Date
  lastResult : Option LastResult
  owedOrders : List Order
  resultOwed : Bool
  stampProgress : Option (Nat × Nat)
  releasePending : Bool
deriving DecidableEq, Repr

/-- Value of the infeed mark (R52). -/
inductive MarkValue
  | held
  | released
deriving DecidableEq, Repr

/-- Origin of an owed INFEED frame (R52). -/
inductive Origin
  | fresh
  | repeated
deriving DecidableEq, Repr

/-- The reason set of the infeed mark (R52). -/
structure InfeedReasons where
  notRunning : Bool
  registerFull : Bool
  queueFull : Bool
deriving DecidableEq, Repr

/-- An owed INFEED frame (R52). -/
structure OwedInfeed where
  order : InfeedOrder
  origin : Origin
deriving DecidableEq, Repr

/-- The infeed mark (R52). -/
structure InfeedMark where
  value : MarkValue
  reasons : InfeedReasons
  owed : Option OwedInfeed
deriving DecidableEq, Repr

/-- The mark after power-on: HELD, NOT_RUNNING, nothing owed (R52, R61). -/
def InfeedMark.powerOn : InfeedMark :=
  { value := .held, reasons := { notRunning := true, registerFull := false, queueFull := false }, owed := none }

/-! ### The jackets (chapters 6 and 8) -/

/-- Why a jacket is RECOVERING (R93). -/
inductive RecoverReason
  | early
  | hold
  | abort
  | restart
deriving DecidableEq, Repr

/-- Why a jacket is in FAULT (R93). -/
inductive FaultCause
  | misroute
  | station
  | silent
  | ventTimeout
  | suspect
deriving DecidableEq, Repr

/-- State of a jacket with its sub-state, reason or cause (R93). -/
inductive JacketState
  | disabled
  | idle
  | awaiting
  | running (kind : BlockKind)
  | recovering (reason : RecoverReason)
  | heldVented
  | unloading
  | fault (cause : FaultCause)
deriving DecidableEq, Repr

/-- Why a program ended early (R111). -/
inductive EarlyCause
  | overpressure
  | leak
  | unstable
  | timeout
deriving DecidableEq, Repr

/-- What the record does at JACKET CLEAR (R92). -/
inductive OnClear
  | route
  | requeue
deriving DecidableEq, Repr

/-- Level, pressure and temperature means of a record of samples (R122). -/
structure Means where
  level : Nat
  pressure : Nat
  temperature : Nat
deriving DecidableEq, Repr

/-- The accumulator (R92): sums, and samples in the current record. -/
structure Accumulator where
  level : Nat
  pressure : Nat
  temperature : Nat
  samples : Nat
deriving DecidableEq, Repr

/-- A cleared accumulator. -/
def Accumulator.clear : Accumulator := { level := 0, pressure := 0, temperature := 0, samples := 0 }

/-- A pair of readings kept together (R92): Z and Tz, T_raw and P_read, or E_perm and Tv. -/
structure ReadingPair where
  first : Nat
  second : Nat
deriving DecidableEq, Repr

/-- One jacket context (R92). -/
structure Jacket where
  state : JacketState
  awaited : Option Serial
  loaded : Option Serial
  slot : Option Nat
  programStart : Nat
  currentBlock : Nat
  elapsed : Nat
  settleStart : Option Nat
  sampleAge : Nat
  acc : Accumulator
  recordsCompleted : Nat
  lastMeans : Option Means
  firstPressure : Option Nat
  zero : Option ReadingPair
  hold : Option ReadingPair
  vent : Option ReadingPair
  earlyEnd : Option EarlyCause
  restartPending : Bool
  onClear : Option OnClear
  owedCommand : Option Command
deriving DecidableEq, Repr

/-- A jacket after power-on (R92). -/
def Jacket.powerOn : Jacket :=
  { state := .disabled, awaited := none, loaded := none, slot := none, programStart := 0, currentBlock := 0,
    elapsed := 0, settleStart := none, sampleAge := 0, acc := .clear, recordsCompleted := 0, lastMeans := none,
    firstPressure := none, zero := none, hold := none, vent := none, earlyEnd := none, restartPending := false,
    onClear := none, owedCommand := none }

/-- The Verification Unit's fields for one jacket (R144). -/
structure Verification where
  verified : Bool
  date : Option Date
  count : Nat
deriving DecidableEq, Repr

/-- Unverified, no date, count 0 (R144). -/
def Verification.powerOn : Verification := { verified := false, date := none, count := 0 }

/-! ### Line Control, notices, management (chapter 10) -/

/-- The line states (R169), in the order of R185. -/
inductive LineState
  | stopped
  | running
  | stopping
  | holding
deriving DecidableEq, Repr

/-- The causes of a hold (R169). -/
inductive HoldCause
  | lineHold
  | ring
deriving DecidableEq, Repr

/-- The configuration items (R176). -/
structure Items where
  plantCode : List Byte
  returnTime : Nat
  sampleAgeLimit : Nat
  advanceWindow : Nat
  thermalLimit : Nat
  zeroThreshold : Nat
deriving DecidableEq, Repr

/-- The items' power-on values (R176). -/
def Items.powerOn : Items :=
  { plantCode := [0x30, 0x30, 0x30, 0x30], returnTime := 25, sampleAgeLimit := 2000, advanceWindow := 0,
    thermalLimit := 10, zeroThreshold := 200 }

/-- Line Control (R169). -/
structure LineControl where
  state : LineState
  holdFrom : LineState
  causeLineHold : Bool
  causeRing : Bool
  date : Option Date
  items : Items
deriving DecidableEq, Repr

/-- Line Control after power-on (R169). -/
def LineControl.powerOn : LineControl :=
  { state := .stopped, holdFrom := .stopped, causeLineHold := false, causeRing := false, date := none,
    items := .powerOn }

/-- What the Notice Unit holds for one class (R177). -/
structure Notice where
  pending : Bool
  enable : Bool
  count : Nat
  subject : Nat
  cause : Nat
  testMark : Bool
deriving DecidableEq, Repr

/-- A class after power-on (R177). -/
def Notice.powerOn : Notice :=
  { pending := false, enable := true, count := 0, subject := 0, cause := 0, testMark := false }

/-- A jacket view (R186). -/
structure JacketView where
  jacket : JacketNo
  state : JacketState
  currentBlock : Nat
  remaining : Nat
  samples : Nat
  lastMeans : Option Means
  awaited : Option Serial
  loaded : Option Serial
  sampleAge : Nat
  zero : Option ReadingPair
  hold : Option ReadingPair
  vent : Option ReadingPair
  earlyEnd : Option EarlyCause
  verified : Bool
  verifiedDate : Option Date
  count : Nat
deriving DecidableEq, Repr

/-- A filled frozen view buffer (R187). -/
structure FrozenViews where
  views : Vector JacketView 8
  pointer : JacketNo
deriving DecidableEq, Repr

/-- The reply buffer (R4, R181): empty; occupied by a request that is being acted on; or holding a reply that found no room. -/
inductive ReplyBuffer
  | empty
  | taken
  | holding (reply : Reply)
deriving DecidableEq, Repr

/-- The Management Responder (R181, R187). -/
structure Responder where
  buffer : ReplyBuffer
  frozen : Option FrozenViews
deriving DecidableEq, Repr

/-! ### The part and the machine -/

/-- Everything the spec gives the part. -/
structure Controller where
  ring : RingPort
  tables : Tables
  records : List Record
  mark : InfeedMark
  jackets : Vector Jacket 8
  verification : Vector Verification 8
  line : LineControl
  notices : Vector Notice 12
  responder : Responder
deriving DecidableEq, Repr

/-- The part in its power-on state with this node address (R18 and the power-on values of every block). -/
def Controller.powerOn (address : NodeAddress) : Controller :=
  { ring := .powerOn address, tables := .powerOn, records := [], mark := .powerOn,
    jackets := Vector.replicate 8 .powerOn, verification := Vector.replicate 8 .powerOn, line := .powerOn,
    notices := Vector.replicate 12 .powerOn, responder := { buffer := .empty, frozen := none } }

/-- The machine: the part, and the commands that wait, oldest first. -/
structure State where
  part : Controller
  pending : List Instr
deriving DecidableEq, Repr

/-- Why a step stops with a fault. The spec gives the part no event that stops it, so there is none (INVENTORY, Faults). -/
inductive Fault
deriving DecidableEq, Repr

/-- Why a step refuses. Every command of the table has its meaning, so no step gives a refusal. -/
inductive Refusal
  /-- Raised by `exec` for a row that has no meaning yet; none is left. Safe: the model stops. -/
  | notModelled (mnemonic : String)
deriving DecidableEq, Repr

/-- The machine right after reset: the part's power-on state with the address of log entry 1 and HOLD not asserted, and no
command waiting. -/
def State.reset : State :=
  { part := .powerOn (BitVec.ofNat 6 Config.resetNodeAddress), pending := [] }

/-- The same machine with another part: what a command changes. -/
def State.withPart (s : State) (c : Controller) : State := { s with part := c }

end Sys2Proof.Machine
end

