-- ==== Sys2Proof/Machine/Operands.lean ====
section
/-! DEFINITION. The operand forms: fields of one, two and four bytes, the frame on the wire and its CRC, and the forms of the
station reports (01, section 1.1) and of the table records (R182). -/
namespace Sys2Proof.Machine

/-! ### Fields of bytes, most significant byte first (01, section 1.1; R182) -/

/-- A field of one byte. -/
def field1 (n : Nat) : List Byte := [BitVec.ofNat 8 n]
/-- A field of two bytes. -/
def field2 (n : Nat) : List Byte := [BitVec.ofNat 8 (n / 256), BitVec.ofNat 8 n]
/-- A field of four bytes. -/
def field4 (n : Nat) : List Byte :=
  [BitVec.ofNat 8 (n / 16777216), BitVec.ofNat 8 (n / 65536), BitVec.ofNat 8 (n / 256), BitVec.ofNat 8 n]
/-- A flag: 0 for clear, 1 for set (R182). -/
def fieldFlag (b : Bool) : List Byte := field1 b.toNat
/-- An optional field: a presence byte, then the value, every byte of it 0 when absent (R182). -/
def fieldOpt {α : Type} (absent : List Byte) (f : α → List Byte) : Option α → List Byte
  | none => fieldFlag false ++ absent
  | some a => fieldFlag true ++ f a
/-- A list: its count, then its items (R182). -/
def fieldList (items : List Byte) : List Byte := field1 items.length ++ items
/-- A plant date: year in two bytes, month, day (R182). -/
def fieldDate (d : Date) : List Byte := field2 d.year ++ field1 d.month ++ field1 d.day
/-- An optional plant date. -/
def fieldDateOpt (d : Option Date) : List Byte := fieldOpt [0, 0, 0, 0] fieldDate d

/-- Two bytes read as a number. -/
def read2 (a b : Byte) : Nat := a.toNat * 256 + b.toNat
/-- Four bytes read as a number. -/
def read4 (a b c d : Byte) : Nat := ((a.toNat * 256 + b.toNat) * 256 + c.toNat) * 256 + d.toNat
/-- A flag byte, which is readable when it is 0 or 1 (R182; log entry 17). -/
def readFlag (b : Byte) : Option Bool :=
  if b = 0 then some false else if b = 1 then some true else none

/-! ### The frame on the wire (01, section 1.1) -/

/-- A received frame that has passed the checks of R1. -/
structure Frame where
  header : Header
  kind : Byte
  payload : List Byte
deriving DecidableEq, Repr

/-- One shift of the CRC register, most significant bit first, generator x^16 + x^12 + x^5 + 1. -/
def crcShift (c : BitVec 16) : BitVec 16 :=
  if c.msb then (c <<< 1) ^^^ 0x1021 else c <<< 1

/-- The CRC register after one more byte. -/
def crcByte (c : BitVec 16) (b : Byte) : BitVec 16 :=
  let c := c ^^^ (b.setWidth 16 <<< 8)
  crcShift (crcShift (crcShift (crcShift (crcShift (crcShift (crcShift (crcShift c)))))))

/-- The frame's CRC over the bytes from the destination to the end of the payload: preset to all ones, no final
inversion. -/
def crc16 (bytes : List Byte) : BitVec 16 := bytes.foldl crcByte 0xFFFF

/-- The CRC field, high byte first. -/
def crcField (c : BitVec 16) : List Byte := [(c >>> 8).setWidth 8, c.setWidth 8]

/-- The bytes the CRC covers: destination, source, kind, sequence, length, payload. -/
def Frame.covered (f : Frame) : List Byte :=
  [f.header.destination, f.header.source, f.kind, f.header.sequence, BitVec.ofNat 8 f.payload.length] ++ f.payload

/-- The bytes between a frame's symbols. -/
def Frame.wire (f : Frame) : List Byte :=
  f.covered ++ crcField (crc16 f.covered) ++ [f.header.trailer]

/-- The frame with its taken mark set (R4). -/
def Frame.markTaken (f : Frame) : Frame :=
  { f with header := { f.header with trailer := f.header.trailer ||| 1 } }

/-- Whether the taken mark, the trailer's lowest bit, is set. -/
def takenMark (h : Header) : Bool := h.trailer.getLsbD 0

/-- The checks of R1 on the bytes between a frame's symbols: the length field is at most 200, the number of bytes is the
length field plus 8, and the CRC matches. The frame, if it passes. -/
def checkFrame (bytes : List Byte) : Option Frame :=
  match bytes with
  | destination :: source :: kind :: sequence :: length :: rest =>
    let payload := rest.take length.toNat
    match rest.drop length.toNat with
    | [high, low, trailer] =>
      if length.toNat ≤ Config.maxPayload ∧ payload.length = length.toNat ∧
          crcField (crc16 ([destination, source, kind, sequence, length] ++ payload)) = [high, low] then
        some { header := { destination, source, sequence, trailer }, kind, payload }
      else none
    | _ => none
  | _ => none

/-! ### Station reports (01, section 1.1) -/

/-- The fields of an ENTRY TAG. -/
structure EntryTag where
  serial : Serial
  status : Nat
  typeCode : Nat
  tare : Nat
  lastYear : Nat
  lastMonth : Nat
deriving DecidableEq, Repr

/-- An ENTRY TAG payload has 10 bytes. -/
def readEntryTag : List Byte → Option EntryTag
  | [a, b, c, d, status, code, t1, t2, year, month] =>
    some { serial := read4 a b c d, status := status.toNat, typeCode := code.toNat, tare := read2 t1 t2,
           lastYear := year.toNat, lastMonth := month.toNat }
  | _ => none

/-- A MASS READING payload has 6 bytes: serial and mass. -/
def readMass : List Byte → Option (Serial × Nat)
  | [a, b, c, d, m1, m2] => some (read4 a b c d, read2 m1 m2)
  | _ => none

/-- A VISUAL FINDINGS payload has 5 bytes plus the count it carries (R5): serial and codes. -/
def readFindings : List Byte → Option (Serial × List Nat)
  | a :: b :: c :: d :: count :: codes =>
    if codes.length = count.toNat then some (read4 a b c d, codes.map BitVec.toNat) else none
  | _ => none

/-- A STAMP REPORT payload has 6 bytes: serial, outcome, characters struck. -/
def readStampReport : List Byte → Option (Serial × Nat × Nat)
  | [a, b, c, d, outcome, struck] => some (read4 a b c d, outcome.toNat, struck.toNat)
  | _ => none

/-- A SCRAP REPORT payload has 5 bytes: serial and outcome. -/
def readScrapReport : List Byte → Option (Serial × Nat)
  | [a, b, c, d, outcome] => some (read4 a b c d, outcome.toNat)
  | _ => none

/-- A JACKET ARRIVAL or JACKET CLEAR payload has 4 bytes: the serial. A RELEASE and a RECORD VIEW carry the same field. -/
def readSerial : List Byte → Option Serial
  | [a, b, c, d] => some (read4 a b c d)
  | _ => none

/-- The fields of a JACKET SAMPLE. -/
structure Sample where
  pressure : Nat
  level : Nat
  temperature : Nat
deriving DecidableEq, Repr

/-- A JACKET SAMPLE payload has 6 bytes: pressure, burette level, temperature. -/
def readSample : List Byte → Option Sample
  | [p1, p2, l1, l2, t1, t2] => some { pressure := read2 p1 p2, level := read2 l1 l2, temperature := read2 t1 t2 }
  | _ => none

/-- The serial given for a report of the wrong length: its first four bytes, or 0 if it has fewer (R5). -/
def leadingSerial : List Byte → Serial
  | a :: b :: c :: d :: _ => read4 a b c d
  | _ => 0

/-! ### Table records (R182) -/

/-- A type record as it is carried: every field readable, its range not yet judged. Absent REE, suffix and reference part
are carried as 0. -/
structure TypeRecord where
  valid : Bool
  size : Nat
  ptest : Nat
  window : Nat
  overpressure : Nat
  ratioLimit : Nat
  ree : Nat
  massLoss : Nat
  massGain : Nat
  interval : Nat
  programStart : Nat
  suffix : Byte
  expected : Nat
  tolerance : Nat
deriving DecidableEq, Repr

/-- A type record is 22 bytes. -/
def readTypeRecord : List Byte → Option TypeRecord
  | [valid, size, p1, p2, window, o1, o2, r1, r2, e1, e2, l1, l2, g1, g2, interval, start, suffix, x1, x2, t1, t2] =>
    (readFlag valid).map fun v =>
      { valid := v, size := size.toNat, ptest := read2 p1 p2, window := window.toNat, overpressure := read2 o1 o2,
        ratioLimit := read2 r1 r2, ree := read2 e1 e2, massLoss := read2 l1 l2, massGain := read2 g1 g2,
        interval := interval.toNat, programStart := start.toNat, suffix := suffix, expected := read2 x1 x2,
        tolerance := read2 t1 t2 }
  | _ => none

/-- An owner window record is 8 bytes. -/
def readWindow : List Byte → Option Window
  | [valid, b1, b2, b3, b4, k, owner, flag] =>
    match readFlag valid, readFlag flag with
    | some v, some r => some { valid := v, base := read4 b1 b2 b3 b4, k := k.toNat, owner := owner.toNat, returnCondemned := r }
    | _, _ => none
  | _ => none

/-- A defect record is 1 byte: the action's code, not yet judged. -/
def readDefect : List Byte → Option Nat
  | [action] => some action.toNat
  | _ => none

/-- A step block record as it is carried. -/
structure BlockRecord where
  kind : Nat
  chain : Bool
  target : Nat
  rate : Nat
  duration : Nat
  samples : Nat
  maxRecords : Nat
  band : Nat
  timeExp : Nat
  reading : Bool
  leak : Option Nat
deriving DecidableEq, Repr

/-- The optional leak allowance: a presence byte and two bytes, which are 0 when it is absent (R182; log entry 17). -/
def readLeak (presence v1 v2 : Byte) : Option (Option Nat) :=
  match readFlag presence with
  | some true => some (some (read2 v1 v2))
  | some false => if v1 = 0 ∧ v2 = 0 then some none else none
  | none => none

/-- A step block record is 16 bytes. -/
def readBlockRecord : List Byte → Option BlockRecord
  | [kind, chain, t1, t2, r1, r2, d1, d2, samples, maxRecords, band, timeExp, reading, presence, v1, v2] =>
    match readFlag chain, readFlag reading, readLeak presence v1 v2 with
    | some c, some r, some l =>
      some { kind := kind.toNat, chain := c, target := read2 t1 t2, rate := read2 r1 r2, duration := read2 d1 d2,
             samples := samples.toNat, maxRecords := maxRecords.toNat, band := band.toNat, timeExp := timeExp.toNat,
             reading := r, leak := l }
    | _, _, _ => none
  | _ => none

/-- A station map record as it is carried: role, jacket number, size class. -/
structure StationRecord where
  role : Nat
  number : Nat
  size : Nat
deriving DecidableEq, Repr

/-- A station map record is 3 bytes; the last two are 0 for a role other than JACKET (R182; log entry 17). A role code that is
none of the nine is carried as it is and judged by R33. -/
def readStationRecord : List Byte → Option StationRecord
  | [role, number, size] =>
    if role.toNat ≤ 8 ∧ role.toNat ≠ 6 ∧ ¬(number = 0 ∧ size = 0) then none
    else some { role := role.toNat, number := number.toNat, size := size.toNat }
  | _ => none

/-- A record of one of the five tables. -/
inductive TableRecord
  | type (record : TypeRecord)
  | window (record : Window)
  | defect (action : Nat)
  | block (record : BlockRecord)
  | station (record : StationRecord)
deriving DecidableEq, Repr

/-- The five tables, by their codes 1 to 5 (R182). -/
inductive TableName
  | types
  | windows
  | defects
  | blocks
  | stations
deriving DecidableEq, Repr

/-- The table of a code (R182). -/
def tableOfCode : Nat → Option TableName
  | 1 => some .types
  | 2 => some .windows
  | 3 => some .defects
  | 4 => some .blocks
  | 5 => some .stations
  | _ => none

/-- Bytes of one record of a table (R182). -/
def TableName.recordSize : TableName → Nat
  | .types => 22
  | .windows => 8
  | .defects => 1
  | .blocks => 16
  | .stations => 3

/-- Entries of a table: the first index out of its range (R36). -/
def TableName.entries : TableName → Nat
  | .types => 128
  | .windows => 16
  | .defects => 256
  | .blocks => 96
  | .stations => 64

/-- One record of a table, if it is readable. -/
def readTableRecord (t : TableName) (bytes : List Byte) : Option TableRecord :=
  match t with
  | .types => (readTypeRecord bytes).map .type
  | .windows => (readWindow bytes).map .window
  | .defects => (readDefect bytes).map .defect
  | .blocks => (readBlockRecord bytes).map .block
  | .stations => (readStationRecord bytes).map .station

/-- Exactly `count` records of a table, each readable, and nothing after them (R35, check 3). -/
def readTableRecords (t : TableName) : Nat → List Byte → Option (List TableRecord)
  | 0, [] => some []
  | 0, _ :: _ => none
  | n + 1, bytes =>
    match readTableRecord t (bytes.take t.recordSize), readTableRecords t n (bytes.drop t.recordSize) with
    | some r, some rs => some (r :: rs)
    | _, _ => none

/-! ### Table entries as records (R38, R182) -/

/-- Size classes: SMALL 0, LARGE 1 (R182). -/
def SizeClass.code : SizeClass → Nat
  | .small => 0
  | .large => 1

/-- Actions run ACCEPT, REWORK, CONDEMN, MANUAL (R182). -/
def Action.code : Action → Nat
  | .accept => 0
  | .rework => 1
  | .condemn => 2
  | .manual => 3

/-- Kinds run ZERO to DWELL (R182). -/
def BlockKind.code : BlockKind → Nat
  | .zero => 0
  | .ramp => 1
  | .hold => 2
  | .vent => 3
  | .dwell => 4

/-- Role codes (R182). -/
def Role.code : Role → Nat
  | .none => 0
  | .master => 1
  | .entry => 2
  | .scale => 3
  | .visual => 4
  | .router => 5
  | .jacket _ _ => 6
  | .stamp => 7
  | .scrap => 8

/-- A type entry in the form of a type record. -/
def TypeEntry.bytes (e : TypeEntry) : List Byte :=
  fieldFlag e.valid ++ field1 e.size.code ++ field2 e.ptest ++ field1 e.window ++ field2 e.overpressure ++
  field2 e.ratioLimit ++ field2 (e.ree.getD 0) ++ field2 e.massLoss ++ field2 e.massGain ++ field1 e.interval ++
  field1 e.programStart ++ [e.suffix.getD 0] ++ field2 ((e.reference.map RefPart.expected).getD 0) ++
  field2 ((e.reference.map RefPart.tolerance).getD 0)

/-- An owner window in the form of its record. -/
def Window.bytes (w : Window) : List Byte :=
  fieldFlag w.valid ++ field4 w.base ++ field1 w.k ++ field1 w.owner ++ fieldFlag w.returnCondemned

/-- A step block in the form of its record. -/
def Block.bytes (b : Block) : List Byte :=
  field1 b.kind.code ++ fieldFlag b.chain ++ field2 b.target ++ field2 b.rate ++ field2 b.duration ++
  field1 b.samples ++ field1 b.maxRecords ++ field1 b.band ++ field1 b.timeExp ++ fieldFlag b.reading ++
  fieldOpt [0, 0] field2 b.leak

/-- A station map entry in the form of its record. -/
def Role.bytes : Role → List Byte
  | .jacket n size => field1 6 ++ field1 n.val ++ field1 size.code
  | r => field1 r.code ++ [0, 0]

/-- The entry of a table at an index, in the form of its record (R38); none outside the table's range. -/
def Tables.entryBytes (t : Tables) (name : TableName) (i : Nat) : Option (List Byte) :=
  match name with
  | .types => (t.types[i]?).map TypeEntry.bytes
  | .windows => (t.windows[i]?).map Window.bytes
  | .defects => (t.defects[i]?).map fun a => field1 a.code
  | .blocks => (t.blocks[i]?).map Block.bytes
  | .stations => (t.stations[i]?).map Role.bytes

end Sys2Proof.Machine
end

