-- ==== Sys2Proof/Machine/Flags.lean ====
section
/-! DEFINITION. The codes of causes, states and reasons on the wire, the frame classes, and the conditions that the part's
marks and queues are judged by. -/
namespace Sys2Proof.Machine

/-! ### Codes -/

/-- Reason codes of R181; 0 when DONE. -/
def reasonCode : Option Reason → Nat
  | none => 0
  | some .badTable => 1
  | some .badIndex => 2
  | some .badField => 3
  | some .misaligned => 4
  | some .overlap => 5
  | some .badProgram => 6
  | some .inUse => 7
  | some .duplicateRole => 8
  | some .busy => 9
  | some .notMapped => 10
  | some .lineState => 11
  | some .noDate => 12
  | some .noMap => 13
  | some .ringDown => 14
  | some .holdActive => 15
  | some .notFound => 16
  | some .noSnapshot => 17
  | some .unsupported => 18

/-- Destination codes of a GATE ORDER (01, section 1.1). -/
def GateDest.code : GateDest → Nat
  | .jacket n => n.val
  | .stamp => 8
  | .scrap => 9
  | .fill => 10
  | .returnLane => 11
  | .manual => 12
  | .rework => 13
  | .reference => 14

/-- Outcome codes of a TEST RESULT: PASS 0, FAIL 1, INVALID 2, REFERENCE 3 (01, section 1.1). -/
def EvalOutcome.code : EvalOutcome → Nat
  | .pass => 0
  | .fail _ => 1
  | .invalid _ => 2
  | .reference _ => 3

/-- Cause codes of a TEST RESULT (01, section 1.1). -/
def EvalOutcome.causeCode : EvalOutcome → Nat
  | .pass => 0
  | .fail .overpressure => 1
  | .invalid .leak => 2
  | .invalid .unstable => 3
  | .invalid .timeout => 4
  | .invalid .thermal => 5
  | .invalid .pressureWindow => 6
  | .invalid .noExpansion => 7
  | .fail .permanent => 8
  | .fail .elastic => 9
  | .reference .inTolerance => 10
  | .reference .outOfTolerance => 11

/-- Place of a class in the Notice Unit; its code is one more (R177). -/
def NoticeClass.index : NoticeClass → Fin 12
  | .overpressure => 0
  | .lineHold => 1
  | .ringRestored => 2
  | .jacketFault => 3
  | .undelivered => 4
  | .calibration => 5
  | .manualDivert => 6
  | .duplicateSerial => 7
  | .strayReport => 8
  | .infeedHeld => 9
  | .programFault => 10
  | .lineStopped => 11

/-- The classes in code order (R177). -/
def noticeClasses : List NoticeClass :=
  [.overpressure, .lineHold, .ringRestored, .jacketFault, .undelivered, .calibration, .manualDivert, .duplicateSerial,
   .strayReport, .infeedHeld, .programFault, .lineStopped]

/-- Code of a class, 1 to 12 (R177). -/
def NoticeClass.code (c : NoticeClass) : Nat := c.index.val + 1

/-- The five hold-critical classes (R177). -/
def NoticeClass.holdCritical : NoticeClass → Bool
  | .overpressure | .lineHold | .ringRestored | .jacketFault | .undelivered => true
  | _ => false

/-- The three one-shot classes (R177). -/
def NoticeClass.oneShot : NoticeClass → Bool
  | .jacketFault | .duplicateSerial | .strayReport => true
  | _ => false

/-- Fault causes: MISROUTE 0 to SUSPECT 4 (R177, R186). -/
def FaultCause.code : FaultCause → Nat
  | .misroute => 0
  | .station => 1
  | .silent => 2
  | .ventTimeout => 3
  | .suspect => 4

/-- Recovery reasons: EARLY 0 to RESTART 3 (R186). -/
def RecoverReason.code : RecoverReason → Nat
  | .early => 0
  | .hold => 1
  | .abort => 2
  | .restart => 3

/-- Early-end causes: OVERPRESSURE 0 to TIMEOUT 3 (R186). -/
def EarlyCause.code : EarlyCause → Nat
  | .overpressure => 0
  | .leak => 1
  | .unstable => 2
  | .timeout => 3

/-- Held causes as R41 lists them, from MISROUTE at 0 (R177). -/
def HeldCause.code : HeldCause → Nat
  | .misroute => 0
  | .undelivered => 1
  | .jacketFault => 2
  | .stampStopped => 3
  | .scrapRefused => 4

/-- Record states run in the order of R42 (R182). -/
def RecordState.code : RecordState → Nat
  | .admitted => 0
  | .weighed => 1
  | .waiting => 2
  | .routed => 3
  | .testing => 4
  | .unloading => 5
  | .stamping => 6
  | .scrapping => 7
  | .leaving => 8
  | .manualHeld => 9

/-- Line states: STOPPED 0, RUNNING 1, STOPPING 2, HOLDING 3 (R185). -/
def LineState.code : LineState → Nat
  | .stopped => 0
  | .running => 1
  | .stopping => 2
  | .holding => 3

/-- Hold causes: 0 LINE_HOLD, 1 RING (R172). -/
def HoldCause.code : HoldCause → Nat
  | .lineHold => 0
  | .ring => 1

/-- Jacket states in the order of R93 from DISABLED at 0 (R186). -/
def JacketState.code : JacketState → Nat
  | .disabled => 0
  | .idle => 1
  | .awaiting => 2
  | .running _ => 3
  | .recovering _ => 4
  | .heldVented => 5
  | .unloading => 6
  | .fault _ => 7

/-- The qualifier of a jacket view: block kind, reason or cause, and 0 in the other states (R186). -/
def JacketState.qualifier : JacketState → Nat
  | .running k => k.code
  | .recovering r => r.code
  | .fault c => c.code
  | _ => 0

/-- Verdict kinds: PASS 0, FAIL 1, REWORK 2, MANUAL 3, REFERENCE 4 (R182). -/
def Verdict.kindCode : Verdict → Nat
  | .pass => 0
  | .fail _ => 1
  | .rework => 2
  | .manual _ => 3
  | .reference _ => 4

/-- Verdict causes, numbered within their kind (R182). -/
def Verdict.causeCode : Verdict → Nat
  | .pass | .rework => 0
  | .fail .massLoss => 1
  | .fail .defect => 2
  | .fail .overpressure => 3
  | .fail .leak => 4
  | .fail .permanent => 5
  | .fail .elastic => 6
  | .manual .noTare => 1
  | .manual .massGain => 2
  | .manual .defect => 3
  | .manual .program => 4
  | .manual .secondInvalid => 5
  | .reference .inTolerance => 1
  | .reference .outOfTolerance => 2

/-- Reasons of INFEED_HELD: 1 NOT_RUNNING, 2 REGISTER_FULL, 4 QUEUE_FULL, summed (R177). -/
def InfeedReasons.code (r : InfeedReasons) : Nat :=
  r.notRunning.toNat + 2 * r.registerFull.toNat + 4 * r.queueFull.toNat

/-- Why a report is stray (R56, R177). -/
inductive StrayCause
  | malformed
  | unknownSerial
  | wrongState
deriving DecidableEq, Repr

/-- MALFORMED 0, UNKNOWN_SERIAL 1, WRONG_STATE 2 (R177). -/
def StrayCause.code : StrayCause → Nat
  | .malformed => 0
  | .unknownSerial => 1
  | .wrongState => 2

/-! ### Kind and payload of the part's own frames (01, section 1.1) -/

/-- The kind code of an own frame. -/
def Body.kind : Body → Nat
  | .infeed _ => 16
  | .gate _ _ => 17
  | .command _ _ => 18
  | .stampOrder _ _ => 19
  | .scrapOrder _ => 20
  | .testResult _ _ => 32
  | .notice _ _ _ _ => 33
  | .reply _ => 34

/-- Command codes 0 SET, 1 VENT, 2 UNLOAD, with target and rate 0 for VENT and UNLOAD. -/
def Command.bytes : Command → List Byte
  | .set target rate => field1 0 ++ field2 target ++ field2 rate
  | .vent => field1 1 ++ field2 0 ++ field2 0
  | .unload => field1 2 ++ field2 0 ++ field2 0

/-- The fields of a TEST RESULT after the serial; a record's last result is shown in the same form (R184). -/
def LastResult.bytes (r : LastResult) : List Byte :=
  field1 r.jacket.val ++ field1 r.attempt ++ field1 r.outcome.code ++ field1 r.outcome.causeCode ++
  field2 r.figures.z ++ field2 r.figures.t ++ field2 r.figures.ePerm ++ field2 r.figures.ratio ++
  field2 r.figures.elastic ++ field2 r.figures.pRead

/-- The payload of an own frame. -/
def Body.payload : Body → List Byte
  | .infeed .hold => field1 0
  | .infeed .release => field1 1
  | .gate serial dest => field4 serial ++ field1 dest.code
  | .command _ c => c.bytes
  | .stampOrder serial marks => field4 serial ++ fieldList marks
  | .scrapOrder serial => field4 serial
  | .testResult serial r => field4 serial ++ r.bytes
  | .notice cls count subject cause => field1 cls.code ++ field1 count ++ field4 subject ++ field1 cause
  | .reply r => field1 r.kind ++ field1 (if r.reason.isNone then 0 else 1) ++ field1 (reasonCode r.reason) ++ r.data

/-- The URGENT frames are JACKET COMMAND VENT and INFEED HOLD (R6). -/
def Body.urgent : Body → Bool
  | .command _ .vent => true
  | .infeed .hold => true
  | _ => false

/-- The hold set (R7). -/
def Body.holdSet : Body → Bool
  | .gate _ _ | .stampOrder _ _ | .scrapOrder _ => true
  | .command _ .vent => false
  | .command _ _ => true
  | .infeed .release => true
  | .infeed .hold => false
  | .notice cls _ _ _ => !cls.holdCritical
  | .testResult _ _ | .reply _ => false

/-! ### Conditions -/

/-- A latched address of 0 or 63 puts the part in bypass (R18). -/
def Controller.bypass (c : Controller) : Bool := c.ring.nodeAddress == 0 || c.ring.nodeAddress == 63

/-- NORMAL frames in a queue. -/
def normalCount (q : List QueueEntry) : Nat := q.countP fun e => !e.body.urgent

/-- Whether a queue of these entries has room for one more NORMAL frame, whatever the line state (R7). -/
def normalRoom (q : List QueueEntry) : Bool :=
  decide (q.length < Config.queueCapacity) && decide (normalCount q < Config.normalCapacity)

/-- Whether an offered frame has room (R7). -/
def Controller.hasRoom (c : Controller) (b : Body) : Bool :=
  !(c.line.state == .holding && b.holdSet) &&
    if b.urgent then decide (c.ring.queue.length < Config.queueCapacity) else normalRoom c.ring.queue

/-- The line states in which the assigner works (R78) and programs start (R86, R113). -/
def Controller.lineMoving (c : Controller) : Bool :=
  c.line.state == .running || c.line.state == .stopping

/-- The conditions of the infeed mark that now fail (R52): the mark's own INFEED frames are left out of the count. -/
def Controller.infeedReasons (c : Controller) : InfeedReasons :=
  { notRunning := c.line.state != .running
    registerFull := !decide (c.records.length < Config.registerCapacity)
    queueFull := !normalRoom (c.ring.queue.filter fun e => e.owner != .infeed) }

/-- The value the infeed should have: RELEASED when no condition fails (R52). -/
def InfeedReasons.wanted (r : InfeedReasons) : MarkValue :=
  if r.notRunning || r.registerFull || r.queueFull then .held else .released

/-- The order that matches a value of the mark. -/
def MarkValue.order : MarkValue → InfeedOrder
  | .held => .hold
  | .released => .release

/-- An entry's type is a reference type when its reference part is present (R20). -/
def TypeEntry.isReference (e : TypeEntry) : Bool := e.reference.isSome

/-- Division rounding half up (00, Rounding and Saturation). -/
def divRound (x d : Nat) : Nat := (x + d / 2) / d

/-- The difference of two numbers as a magnitude. -/
def magnitude (a b : Nat) : Nat := (a - b) + (b - a)

/-- A figure in thousandths of another, rounding half up (R103, R110, R125). -/
def perMille (x k : Nat) : Nat := divRound (x * k) 1000

/-- A block's M: its max records field, or 64 when that is 0 (R101). -/
def Block.maxCount (b : Block) : Nat := if b.maxRecords = 0 then 64 else b.maxRecords

/-- A date's month number (00, Plant Date). -/
def Date.monthNumber (d : Date) : Nat := (d.year - 2000) * 12 + (d.month - 1)

/-- Days of a month; a year divisible by 4 is a leap year (00, Plant Date). -/
def daysInMonth (year month : Nat) : Nat :=
  match month with
  | 2 => if year % 4 = 0 then 29 else 28
  | 4 | 6 | 9 | 11 => 30
  | _ => 31

/-- A valid plant date (R175). -/
def Date.valid (d : Date) : Bool :=
  decide (2000 ≤ d.year) && decide (d.year ≤ 2099) && decide (1 ≤ d.month) && decide (d.month ≤ 12) &&
    decide (1 ≤ d.day) && decide (d.day ≤ daysInMonth d.year d.month)

/-- Letters and digits, of which the plant code is made (00, Characters). -/
def isAlnum (b : Byte) : Bool :=
  (decide (0x30 ≤ b.toNat) && decide (b.toNat ≤ 0x39)) || (decide (0x41 ≤ b.toNat) && decide (b.toNat ≤ 0x5A))

/-- The characters stamp marks are made of: letters, digits, '/', '-' and space (00, Characters). -/
def isMarkCharacter (b : Byte) : Bool := isAlnum b || b == 0x2F || b == 0x2D || b == 0x20

end Sys2Proof.Machine
end

