-- ==== Sys2Proof/Machine/Ops.lean ====
section
/-! DEFINITION. The shared operations over the part's state: the insertion queue and its owed arbitration, the infeed mark,
the notices, entry to MANUAL_HELD, and the release of records. -/
namespace Sys2Proof.Machine

/-! ### Access to the parts of the state -/

/-- The context of jacket n. -/
def Controller.jacket (c : Controller) (n : JacketNo) : Jacket := c.jackets.get n

/-- A change of jacket n's context. -/
def Controller.updJacket (c : Controller) (n : JacketNo) (f : Jacket → Jacket) : Controller :=
  { c with jackets := c.jackets.set n.val (f (c.jacket n)) n.isLt }

/-- The Verification Unit's fields for jacket n. -/
def Controller.verif (c : Controller) (n : JacketNo) : Verification := c.verification.get n

/-- A change of the Verification Unit's fields for jacket n. -/
def Controller.updVerif (c : Controller) (n : JacketNo) (f : Verification → Verification) : Controller :=
  { c with verification := c.verification.set n.val (f (c.verif n)) n.isLt }

/-- What the Notice Unit holds for a class. -/
def Controller.notice (c : Controller) (cls : NoticeClass) : Notice := c.notices.get cls.index

/-- A change of what the Notice Unit holds for a class. -/
def Controller.updNotice (c : Controller) (cls : NoticeClass) (f : Notice → Notice) : Controller :=
  { c with notices := c.notices.set cls.index.val (f (c.notice cls)) cls.index.isLt }

/-- Another insertion queue. -/
def Controller.setQueue (c : Controller) (q : List QueueEntry) : Controller :=
  { c with ring := { c.ring with queue := q } }

/-- Another outstanding list. -/
def Controller.setOutstanding (c : Controller) (l : List OutEntry) : Controller :=
  { c with ring := { c.ring with outstanding := l } }

/-- Another infeed mark. -/
def Controller.setMark (c : Controller) (m : InfeedMark) : Controller := { c with mark := m }

/-- Another line state. -/
def Controller.setLineState (c : Controller) (s : LineState) : Controller :=
  { c with line := { c.line with state := s } }

/-- Another reply buffer. -/
def Controller.setBuffer (c : Controller) (b : ReplyBuffer) : Controller :=
  { c with responder := { c.responder with buffer := b } }

/-- The record that holds a slot (R40). -/
def Controller.recordAt (c : Controller) (slot : Nat) : Option Record := c.records.find? fun r => r.slot == slot

/-- The record that carries a serial (R40). -/
def Controller.recordOf (c : Controller) (serial : Serial) : Option Record :=
  c.records.find? fun r => r.serial == serial

/-- A change of the record in a slot. -/
def Controller.updRecord (c : Controller) (slot : Nat) (f : Record → Record) : Controller :=
  { c with records := c.records.map fun r => if r.slot = slot then f r else r }

/-- The jackets in number order. -/
def jacketNumbers : List JacketNo := [0, 1, 2, 3, 4, 5, 6, 7]

/-! ### The station map (R32) -/

/-- The lowest address whose role satisfies a test, if any does. -/
def Controller.nodeWhere? (c : Controller) (p : Role → Bool) : Option Nat := c.tables.stations.toList.findIdx? p

/-- The node of a role; 0 when no address holds it (R32). -/
def Controller.nodeWhere (c : Controller) (p : Role → Bool) : Nat := (c.nodeWhere? p).getD 0

/-- Whether a role is JACKET n. -/
def Role.isJacket (n : JacketNo) : Role → Bool
  | .jacket m _ => m == n
  | _ => false

/-- The role held at a source address; NONE above 63 (R32). -/
def Controller.roleAt (c : Controller) (address : Nat) : Role := (c.tables.stations[address]?).getD .none

/-- The size class of jacket n as its station map entry gives it (R32, R77). -/
def Controller.jacketSize (c : Controller) (n : JacketNo) : Option SizeClass :=
  match c.tables.stations.toList.find? (Role.isJacket n) with
  | some (.jacket _ size) => some size
  | _ => none

/-- The destination fixed for a frame when it is placed (R6, R32). -/
def Controller.destinationOf (c : Controller) : Body → Nat
  | .infeed _ => c.nodeWhere (· == .entry)
  | .gate _ _ => c.nodeWhere (· == .router)
  | .command n _ => c.nodeWhere (Role.isJacket n)
  | .stampOrder _ _ => c.nodeWhere (· == .stamp)
  | .scrapOrder _ => c.nodeWhere (· == .scrap)
  | .testResult _ _ => c.nodeWhere (· == .master)
  | .notice _ _ _ _ => c.nodeWhere (· == .master)
  | .reply r => r.destination

/-! ### Placing frames -/

/-- A frame placed at the tail of the queue; `hasRoom` has been judged (R7). The head of each class is its oldest entry. -/
def Controller.enqueue (c : Controller) (b : Body) (owner : Owner) (clearedEnable : Bool := false) (testMark : Bool := false) :
    Controller :=
  c.setQueue (c.ring.queue ++ [{ destination := c.destinationOf b, body := b, owner, clearedEnable, testMark }])

/-- A class is offerable while it is pending and enabled and some address holds MASTER (R179). -/
def Controller.offerable (c : Controller) (cls : NoticeClass) : Bool :=
  (c.notice cls).pending && (c.notice cls).enable && (c.nodeWhere? (· == .master)).isSome

/-- The NOTICE frame a class would send now: its code, count and detail (R179). -/
def Controller.noticeBody (c : Controller) (cls : NoticeClass) : Body :=
  .notice cls (c.notice cls).count (c.notice cls).subject (c.notice cls).cause

/-- Whether a class's NOTICE can be placed now. -/
def Controller.noticePlaceable (c : Controller) (cls : NoticeClass) : Bool :=
  c.offerable cls && c.hasRoom (c.noticeBody cls)

/-- Placement of a NOTICE and its effects on the class (R179), without the judgment of the infeed mark. -/
def Controller.putNotice (c : Controller) (cls : NoticeClass) : Controller :=
  let clears := cls.oneShot && !(c.notice cls).testMark
  (c.enqueue (c.noticeBody cls) (.notice cls) clears (c.notice cls).testMark).updNotice cls fun s =>
    { s with pending := false, count := 0, subject := 0, cause := 0, testMark := false,
             enable := s.enable && !clears }

/-- Steps 1 to 4 of a raise (R178). -/
def Controller.markRaise (c : Controller) (cls : NoticeClass) (subject cause : Nat) (test : Bool) : Controller :=
  c.updNotice cls fun s =>
    { s with pending := true, count := min 255 (s.count + 1), subject, cause, testMark := test }

/-! ### The infeed mark (R52 to R54) -/

/-- The reason set replaced by the conditions that now fail (R53). -/
def Controller.refreshReasons (c : Controller) : Controller :=
  c.setMark { c.mark with reasons := c.infeedReasons }

/-- An INFEED frame of the mark's offered at once (R54): placed, or owed with this origin. Its placement cannot change what the
mark is judged by, since the mark's own frames are left out of the count (R52). -/
def Controller.offerInfeed (c : Controller) (o : InfeedOrder) (origin : Origin) : Controller :=
  if c.hasRoom (.infeed o) then (c.enqueue (.infeed o) .infeed).setMark { c.mark with owed := none }
  else c.setMark { c.mark with owed := some { order := o, origin } }

/-- What a flip to a new value does about the mark's frames (R53, steps 2 and 3; R54). `freed` says that the judgment
followed the freeing of an entry, so the frame becomes owed for the arbitration the freeing runs. -/
def Controller.flipFrame (c : Controller) (freed : Bool) (v : MarkValue) : Controller :=
  let make : Controller :=
    if freed then c.setMark { c.mark with owed := some { order := v.order, origin := .fresh } }
    else c.offerInfeed v.order .fresh
  match c.mark.owed with
  | none => make
  | some o =>
    if o.order = v.order then c
    else
      match o.origin with
      | .fresh => c.setMark { c.mark with owed := none }
      | .repeated => make

/-- INFEED_HELD raised by a flip to HELD (R53, step 4; R178). The mark is HELD and a placement opens no room, so of the
judgment that follows a placement only the reason set can change. -/
def Controller.raiseInfeedHeld (c : Controller) (cause : Nat) : Controller :=
  let c1 := c.markRaise .infeedHeld 0 cause false
  if c1.noticePlaceable .infeedHeld then (c1.putNotice .infeedHeld).refreshReasons else c1

/-- The infeed mark judged afresh (R53). -/
def Controller.judge (freed : Bool) (c : Controller) : Controller :=
  let reasons := c.infeedReasons
  let v := reasons.wanted
  if c.mark.value = v then c.setMark { c.mark with reasons }
  else
    let c1 := (c.setMark { c.mark with reasons, value := v }).flipFrame freed v
    if v = .held ∧ c1.line.state = .running then c1.raiseInfeedHeld reasons.code else c1

/-! ### Notices (R178, R179) -/

/-- A class offered if it is offerable, and placed if there is room (R179). -/
def Controller.offerNotice (c : Controller) (cls : NoticeClass) : Controller :=
  if c.noticePlaceable cls then (c.putNotice cls).judge false else c

/-- A notice raised (R178). -/
def Controller.raise (c : Controller) (cls : NoticeClass) (subject cause : Nat) : Controller :=
  (c.markRaise cls subject cause false).offerNotice cls

/-- Each class in code order, offered if it is offerable. -/
def Controller.offerNotices (c : Controller) : Controller := noticeClasses.foldl Controller.offerNotice c

/-! ### Frames of the other owners -/

/-- A jacket command offered under R7 (R94): placed, or owed by the jacket. -/
def Controller.offerCommand (c : Controller) (n : JacketNo) (k : Command) : Controller :=
  if c.hasRoom (.command n k) then
    (((c.enqueue (.command n k) (.jacket n)).updJacket n fun j => { j with owedCommand := none })).judge false
  else c.updJacket n fun j => { j with owedCommand := some k }

/-- A jacket's owed command, if it is of the class asked for, offered again (R8, groups 1 and 3). -/
def Controller.offerOwedCommand (urgent : Bool) (c : Controller) (n : JacketNo) : Controller :=
  match (c.jacket n).owedCommand with
  | some k => if (Body.command n k).urgent = urgent then c.offerCommand n k else c
  | none => c

/-- The infeed mark's owed frame of this order, offered again (R8, groups 1 and 4). One whose order differs from the mark's
value is cleared and not placed (R54). A full queue has ended the arbitration before its turn (R8). -/
def Controller.offerOwedInfeed (c : Controller) (o : InfeedOrder) : Controller :=
  match c.mark.owed with
  | some owed =>
    if owed.order ≠ o ∨ Config.queueCapacity ≤ c.ring.queue.length then c
    else if o ≠ c.mark.value.order then c.setMark { c.mark with owed := none }
    else if c.hasRoom (.infeed o) then
      ((c.enqueue (.infeed o) .infeed).setMark { c.mark with owed := none }).judge false
    else c
  | none => c

/-- The reply buffer's reply offered (R181): placed, which empties the buffer, or owed. -/
def Controller.offerReply (c : Controller) : Controller :=
  match c.responder.buffer with
  | .holding r =>
    if c.hasRoom (.reply r) then ((c.enqueue (.reply r) .reply).setBuffer .empty).judge false else c
  | _ => c

/-- The body of a record's order. -/
def Order.body (serial : Serial) : Order → Body
  | .gate d => .gate serial d
  | .stamp marks => .stampOrder serial marks
  | .scrap => .scrapOrder serial

/-- A record's owed orders offered in the order they were made, each only after the one before it has been placed (R157). -/
def Controller.offerOrders (c : Controller) (slot : Nat) (serial : Serial) : List Order → Controller
  | [] => c
  | o :: rest =>
    if c.hasRoom (o.body serial) then
      let c1 := c.updRecord slot fun r => { r with owedOrders := rest }
      ((c1.enqueue (o.body serial) (.record slot)).judge false).offerOrders slot serial rest
    else c

/-- The record in a slot with its owed TEST RESULT placed and its result owed mark cleared (R140). -/
def Controller.putResult (c : Controller) (slot : Nat) (serial : Serial) (r : LastResult) : Controller :=
  ((c.enqueue (.testResult serial r) (.record slot)).updRecord slot fun r => { r with resultOwed := false }).judge false

/-! ### Withdrawal and removal -/

/-- Entries of the queue that satisfy a test removed one after another, oldest first: each removal frees its entry, judges the
infeed mark and runs the owed arbitration (R8, R53). -/
def Controller.withdrawLoop (arb : Controller → Controller) (p : QueueEntry → Bool) : Nat → Controller → Controller
  | 0, c => c
  | n + 1, c =>
    if c.ring.queue.any p then
      Controller.withdrawLoop arb p n (arb ((c.setQueue (c.ring.queue.eraseP p)).judge true))
    else c

/-- Every entry that satisfies a test withdrawn. -/
def Controller.withdrawWith (arb : Controller → Controller) (p : QueueEntry → Bool) (c : Controller) : Controller :=
  Controller.withdrawLoop arb p (c.ring.queue.countP p) c

/-- A gate, stamp or scrap order. -/
def Body.isOrder : Body → Bool
  | .gate _ _ | .stampOrder _ _ | .scrapOrder _ => true
  | _ => false

/-- A queue entry that is an order of the record in a slot. -/
def QueueEntry.isOrderOf (slot : Nat) (e : QueueEntry) : Bool := e.owner == .record slot && e.body.isOrder

/-- A queue entry of a removed record: a TEST RESULT keeps its place and loses its owner (R58, step 3). -/
def QueueEntry.disownResult (slot : Nat) (e : QueueEntry) : QueueEntry :=
  if e.owner = .record slot ∧ e.body.isOrder = false then { e with owner := .lost } else e

/-- An outstanding entry of a removed record loses its owner (R58, step 4). -/
def OutEntry.disown (slot : Nat) (e : OutEntry) : OutEntry :=
  if e.owner = .record slot then { e with owner := .lost } else e

/-- The line enters STOPPED when the last record of a STOPPING line is released (R58, step 6; R171). -/
def Controller.finishDrain (c : Controller) : Controller :=
  if c.line.state = .stopping ∧ c.records = [] then
    ((c.setLineState .stopped).raise .lineStopped 0 0).judge false
  else c

/-- The record in a slot removed (R58). -/
def Controller.removeWith (arb : Controller → Controller) (slot : Nat) (c : Controller) : Controller :=
  let c1 := { c with records := c.records.filter fun r => r.slot != slot }
  let c2 := c1.setQueue (c1.ring.queue.map (QueueEntry.disownResult slot))
  let c3 := c2.setOutstanding (c2.ring.outstanding.map (OutEntry.disown slot))
  ((Controller.withdrawWith arb (QueueEntry.isOrderOf slot) c3).judge false).finishDrain

/-- A record's owed frames offered: its TEST RESULT first, whose placement completes a pending release (R59, R140), then its
orders (R157). -/
def Controller.offerRecordWith (arb : Controller → Controller) (c : Controller) (slot : Nat) : Controller :=
  match c.recordAt slot with
  | none => c
  | some r =>
    if r.resultOwed then
      match r.lastResult with
      | none => c
      | some res =>
        if c.hasRoom (.testResult r.serial res) then
          let c1 := c.putResult slot r.serial res
          if r.releasePending then Controller.removeWith arb slot c1
          else c1.offerOrders slot r.serial r.owedOrders
        else c
    else c.offerOrders slot r.serial r.owedOrders

/-- The owed arbitration (R8): URGENT owed frames, records in register order, jackets, the INFEED RELEASE, the reply buffer,
the notices. `inner` is the arbitration of a freeing inside it. -/
def Controller.arbitrateWith (inner : Controller → Controller) (c : Controller) : Controller :=
  let c1 := jacketNumbers.foldl (Controller.offerOwedCommand true) c
  let c2 := c1.offerOwedInfeed .hold
  let c3 := (c2.records.map Record.slot).foldl (Controller.offerRecordWith inner) c2
  let c4 := jacketNumbers.foldl (Controller.offerOwedCommand false) c3
  let c5 := c4.offerOwedInfeed .release
  c5.offerReply.offerNotices

/-- The owed arbitration with this many levels of freeings inside it. -/
def Controller.arbitrateDepth : Nat → Controller → Controller
  | 0, c => c
  | n + 1, c => Controller.arbitrateWith (Controller.arbitrateDepth n) c

/-- The owed arbitration (R8). A freeing inside it comes of the completion of a pending release, which removes a record, so there
are at most as many levels as records. -/
def Controller.arbitrate (c : Controller) : Controller := Controller.arbitrateDepth (c.records.length + 1) c

/-- An entry has been freed: the infeed mark is judged and the owed arbitration runs (R8, R53, R54). -/
def Controller.afterFreeing (c : Controller) : Controller := (c.judge true).arbitrate

/-- Every entry that satisfies a test withdrawn from the queue. -/
def Controller.withdraw (c : Controller) (p : QueueEntry → Bool) : Controller :=
  Controller.withdrawWith Controller.arbitrate p c

/-- The record in a slot removed (R58). -/
def Controller.remove (c : Controller) (slot : Nat) : Controller := Controller.removeWith Controller.arbitrate slot c

/-- The frames the record in a slot owes, offered. -/
def Controller.offerRecord (c : Controller) (slot : Nat) : Controller :=
  Controller.offerRecordWith Controller.arbitrate c slot

/-- A release of the record in a slot asked for (R58, R59). -/
def Controller.askRelease (c : Controller) (slot : Nat) : Controller :=
  match c.recordAt slot with
  | none => c
  | some r =>
    if r.resultOwed then c.updRecord slot fun r => { r with releasePending := true }
    else c.remove slot

/-! ### Orders of a record (R66, R84, R157, R158) -/

/-- Orders made by the record in a slot, and offered after everything it already owes (R84, R157). -/
def Controller.makeOrders (c : Controller) (slot : Nat) (orders : List Order) : Controller :=
  (c.updRecord slot fun r => { r with owedOrders := r.owedOrders ++ orders }).offerRecord slot

/-- An outstanding order of the record in a slot stands no longer (R84). -/
def OutEntry.cancel (slot : Nat) (e : OutEntry) : OutEntry :=
  if e.owner = .record slot ∧ e.body.isOrder = true then { e with stands := false } else e

/-- Every order of the record in a slot stands no longer: owed ones are cleared, queued ones removed, outstanding ones are
judged without effect (R43, R86, R158). -/
def Controller.cancelOrders (c : Controller) (slot : Nat) : Controller :=
  let c1 := c.updRecord slot fun r => { r with owedOrders := [] }
  let c2 := c1.setOutstanding (c1.ring.outstanding.map (OutEntry.cancel slot))
  c2.withdraw (QueueEntry.isOrderOf slot)

/-- Entry of the record in a slot to MANUAL_HELD (R43). A record already there, or with its release pending, is left as it
stands. -/
def Controller.holdRecord (c : Controller) (slot : Nat) (cause : HeldCause) : Controller :=
  match c.recordAt slot with
  | none => c
  | some r =>
    if r.releasePending = true ∨ r.state = .manualHeld then c
    else (c.updRecord slot fun r => { r with state := .manualHeld, heldCause := some cause }).cancelOrders slot

/-- A stray report: it is dropped, and STRAY_REPORT is raised with the role of its source, its serial and the cause
(R5, R56, R177). -/
def Controller.stray (c : Controller) (role : Role) (serial : Serial) (cause : StrayCause) : Controller :=
  c.raise .strayReport serial (role.code * 16 + cause.code)

/-- A disposition or a failed chain check diverts the record in a slot to an outgoing lane (R66). -/
def Controller.divert (c : Controller) (slot : Nat) (v : Verdict) (lane : GateDest) : Controller :=
  (c.updRecord slot fun r => { r with verdict := some v, state := .leaving }).makeOrders slot [.gate lane]

end Sys2Proof.Machine
end

