-- ==== Sys2Proof/Machine/Assigner.lean ====
section
/-! DEFINITION. The walk and the check of a program's chain (R28 to R31), and the Jacket Assigner (R76 to R83). -/
namespace Sys2Proof.Machine

/-! ### Step blocks and chains -/

/-- Whether a block's kind uses a maximum, a band, samples and a duration to settle: ZERO, HOLD and VENT (R27). -/
def BlockKind.settles : BlockKind → Bool
  | .zero | .hold | .vent => true
  | .ramp | .dwell => false

/-- R28, step 1: every field the kind uses lies in its range. -/
def Block.usedInRange (b : Block) : Bool :=
  decide (b.timeExp ≤ 11) &&
  match b.kind with
  | .ramp => decide (b.target ≤ 1100) && decide (1 ≤ b.rate) && decide (b.rate ≤ 65535)
  | .dwell => decide (b.duration ≤ 6000)
  | .zero | .hold | .vent =>
    decide (b.duration ≤ 6000) && decide (1 ≤ b.samples) && decide (b.samples ≤ 16) && decide (b.maxRecords ≤ 63) &&
      decide (b.band ≤ 255) && decide (b.leak.getD 0 ≤ 65535)

/-- R28, step 2: every field the kind does not use is 0, clear or absent. -/
def Block.unusedClear (b : Block) : Bool :=
  (b.kind == .ramp || (b.target == 0 && b.rate == 0)) &&
  (b.kind != .ramp || b.duration == 0) &&
  (b.kind.settles || (b.samples == 0 && b.maxRecords == 0 && b.band == 0)) &&
  (b.kind == .hold || (!b.reading && b.leak.isNone))

/-- Steps 1 and 2 of R28. -/
def Block.fieldsOk (b : Block) : Bool := b.usedInRange && b.unusedClear

/-- How the walk of R29 ended. -/
inductive WalkEnd
  | clear
  | pastStore
  | tooLong
deriving DecidableEq, Repr

/-- The walk of R29 with this many blocks still allowed: the indices taken, in order, and how it ended. -/
def chainWalk (store : Vector Block 96) : Nat → Nat → List Nat × WalkEnd
  | 0, _ => ([], .tooLong)
  | n + 1, p =>
    match store[p]? with
    | none => ([], .pastStore)
    | some b =>
      if b.chain = false then ([p], .clear)
      else if 95 ≤ p then ([p], .pastStore)
      else (p :: (chainWalk store n (p + 1)).1, (chainWalk store n (p + 1)).2)

/-- The chain that begins at an index (R29). -/
def Tables.chainAt (t : Tables) (p : Nat) : List Nat × WalkEnd := chainWalk t.blocks Config.maxChain p

/-- The block at an index; the power-on block outside the store, where no chain leads. -/
def Tables.blockAt (t : Tables) (i : Nat) : Block := (t.blocks[i]?).getD .powerOn

/-- A HOLD with the reading flag (R30). -/
def Block.isReadingHold (b : Block) : Bool := b.kind == .hold && b.reading

/-- The chain check (R30). The last block is a VENT, so it is not the reading HOLD and stands after it. -/
def Tables.chainOk (t : Tables) (p : Nat) : Bool :=
  let blocks := (t.chainAt p).1.map t.blockAt
  (t.chainAt p).2 == .clear &&
  (blocks.head?.map Block.kind) == some .zero &&
  blocks.countP Block.isReadingHold == 1 &&
  (blocks.getLast?.map Block.kind) == some .vent &&
  blocks.all Block.fieldsOk

/-- The states in which a jacket's chain is protected (R31). -/
def JacketState.protects : JacketState → Bool
  | .awaiting | .running _ | .recovering _ | .heldVented => true
  | .disabled | .idle | .unloading | .fault _ => false

/-- Whether a block lies in a protected chain (R31). -/
def Controller.blockProtected (c : Controller) (i : Nat) : Bool :=
  jacketNumbers.any fun n =>
    (c.jacket n).state.protects && (c.tables.chainAt (c.jacket n).programStart).1.contains i

/-! ### Eligibility and choice -/

/-- A record that stands in the waiting queue (R76). -/
def Record.isWaiting (r : Record) : Bool := r.state == .waiting && !r.releasePending

/-- The waiting queue (R76). -/
def Controller.waitingQueue (c : Controller) : List Record := c.records.filter Record.isWaiting

/-- Whether jacket n is eligible for a waiting record (R77). -/
def Controller.eligible (c : Controller) (n : JacketNo) (r : Record) : Bool :=
  (c.jacket n).state == .idle &&
  c.jacketSize n == some r.spec.size &&
  decide ((c.verif n).count < 3) &&
  ((c.verif n).verified || r.spec.isReference) &&
  decide (r.countedInvalids < 2)

/-- The jacket a record pass chooses (R79). -/
def Controller.jacketFor (c : Controller) (r : Record) : Option JacketNo :=
  let lowest := jacketNumbers.find? fun n => c.eligible n r
  if r.spec.isReference then
    (jacketNumbers.find? fun n => c.eligible n r && !(c.verif n).verified).or lowest
  else lowest

/-- The record a jacket pass chooses (R80). Eligibility already keeps an unverified jacket to reference records (R77). -/
def Controller.recordFor (c : Controller) (n : JacketNo) : Option Record :=
  c.waitingQueue.find? fun r => c.eligible n r

/-! ### Assignment -/

/-- The assignment of a record to jacket n, once its chain has passed (R83). -/
def Controller.assign (c : Controller) (r : Record) (n : JacketNo) : Controller :=
  let c1 := c.updRecord r.slot fun r => { r with state := .routed, jacket := some n }
  let c2 := c1.updJacket n fun j =>
    { j with state := .awaiting, awaited := some r.serial, slot := some r.slot, programStart := r.spec.programStart }
  c2.makeOrders r.slot [.gate (.jacket n)]

/-- What a failed chain check at an assignment does to the record (R82). -/
def Controller.programFault (c : Controller) (r : Record) : Controller :=
  (c.divert r.slot (.manual .program) .manual).raise .programFault r.serial r.spec.programStart

/-- The jacket pass with this many attempts left (R80, R82). -/
def Controller.jacketPassDepth : Nat → Controller → JacketNo → Controller
  | 0, c, _ => c
  | k + 1, c, n =>
    match c.recordFor n with
    | none => c
    | some r =>
      if c.tables.chainOk r.spec.programStart then c.assign r n
      else Controller.jacketPassDepth k (c.programFault r) n

/-- The jacket pass for jacket n, if the line is RUNNING or STOPPING (R78, R80). Each failed chain check takes a record from the
waiting queue, so there are at most as many attempts as records. -/
def Controller.jacketPass (c : Controller) (n : JacketNo) : Controller :=
  if c.lineMoving then Controller.jacketPassDepth (c.records.length + 1) c n else c

/-- The passes made when the line becomes RUNNING or STOPPING (R81). -/
def Controller.jacketPasses (c : Controller) : Controller := jacketNumbers.foldl Controller.jacketPass c

/-- The record pass for the record in a slot, if the line is RUNNING or STOPPING (R78, R79, R82). -/
def Controller.recordPass (c : Controller) (slot : Nat) : Controller :=
  if c.lineMoving then
    match c.recordAt slot with
    | none => c
    | some r =>
      if r.isWaiting then
        match c.jacketFor r with
        | none => c
        | some n =>
          if c.tables.chainOk r.spec.programStart then c.assign r n else (c.programFault r).jacketPass n
      else c
  else c

/-- A record enters WAITING, with its jacket field made absent, and its record pass is made (R72, R76, R81). -/
def Controller.enterWaiting (c : Controller) (slot : Nat) : Controller :=
  (c.updRecord slot fun r => { r with state := .waiting, jacket := none }).recordPass slot

end Sys2Proof.Machine
end

