-- ==== Sys2Proof/Machine/Evaluator.lean ====
section
/-! DEFINITION. The Expansion Evaluator's arithmetic and verdict (R122 to R138), the Verification Unit's judgment (R147 to R150) and
the marks of the Order Unit (R159, R160): all of them functions of the readings and the record, without the state. -/
namespace Sys2Proof.Machine

/-! ### Stages -/

/-- Stage 1: the means of a completed record of S samples (R122). -/
def recordMeans (a : Accumulator) (samples : Nat) : Means :=
  { level := divRound a.level samples, pressure := divRound a.pressure samples,
    temperature := divRound a.temperature samples }

/-- The overpressure limit of a type (R110). -/
def TypeEntry.pressureLimit (e : TypeEntry) : Nat := perMille e.ptest e.overpressure

/-- The window allowance of a type (R103, R125). -/
def TypeEntry.allowance (e : TypeEntry) : Nat := perMille e.ptest e.window

/-- The target of a RAMP block for a type, as computed (R103). -/
def rampTarget (e : TypeEntry) (b : Block) : Nat := perMille e.ptest b.target

/-- The completion threshold of a RAMP block for a type (R103). -/
def rampThreshold (e : TypeEntry) (b : Block) : Nat := rampTarget e b - e.allowance

/-- Stage 3: whether the thermal check fails (R124). -/
def thermalFails (tz tv limit : Nat) : Bool := decide (limit < magnitude tz tv)

/-- Stage 4: whether the pressure window fails (R125). -/
def windowFails (e : TypeEntry) (pRead : Nat) : Bool := decide (e.allowance < magnitude pRead e.ptest)

/-- Stage 5: the normalised total expansion (R126). -/
def normalised (e : TypeEntry) (tRaw pRead : Nat) : Nat := min Config.top16 (divRound (tRaw * e.ptest) pRead)

/-- Stage 6: the permanent-to-total ratio in 0.1 % (R127). -/
def expansionRatio (ePerm t : Nat) : Nat := min 1000 (divRound (ePerm * 1000) t)

/-- Stage 7: the elastic expansion (R128). -/
def elasticExpansion (ePerm t : Nat) : Nat := t - ePerm

/-- The reference judgment of T (R147, R148). -/
def RefPart.judge (p : RefPart) (t : Nat) : ReferenceCause :=
  if magnitude t p.expected ≤ p.tolerance then .inTolerance else .outOfTolerance

/-- The verdict on the figures of a program that reached its end: cases 8 to 10 of R129, or the reference judgment (R131). -/
def judgeFigures (e : TypeEntry) (t ratio elastic : Nat) : EvalOutcome :=
  match e.reference with
  | some p => .reference (p.judge t)
  | none =>
    if e.ratioLimit < ratio then .fail .permanent
    else
      match e.ree with
      | some limit => if limit < elastic then .fail .elastic else .pass
      | none => .pass

/-- The outcome an early end gives: cases 1 to 4 of R129. -/
def EarlyCause.outcome : EarlyCause → EvalOutcome
  | .overpressure => .fail .overpressure
  | .leak => .invalid .leak
  | .unstable => .invalid .unstable
  | .timeout => .invalid .timeout

/-- A reading of a pair, or 0 if the pair is absent (R130). -/
def firstOf (p : Option ReadingPair) : Nat := (p.map ReadingPair.first).getD 0
/-- The second reading of a pair, or 0 if the pair is absent (R130). -/
def secondOf (p : Option ReadingPair) : Nat := (p.map ReadingPair.second).getD 0

/-- The figures standing before stage 5 (R130). -/
def Jacket.readFigures (j : Jacket) : Figures :=
  { z := firstOf j.zero, t := 0, ePerm := firstOf j.vent, ratio := 0, elastic := 0, pRead := secondOf j.hold }

/-- Outcome and figures of an evaluation (R121 step 1, R124 to R131). -/
def formResult (j : Jacket) (e : TypeEntry) (thermalLimit : Nat) : EvalOutcome × Figures :=
  let f := j.readFigures
  match j.earlyEnd with
  | some cause => (cause.outcome, f)
  | none =>
    if thermalFails (secondOf j.zero) (secondOf j.vent) thermalLimit then (.invalid .thermal, f)
    else if windowFails e f.pRead then (.invalid .pressureWindow, f)
    else
      let t := normalised e (firstOf j.hold) f.pRead
      if t = 0 then (.invalid .noExpansion, f)
      else
        let ratio := expansionRatio f.ePerm t
        let elastic := elasticExpansion f.ePerm t
        (judgeFigures e t ratio elastic, { f with t, ratio, elastic })

/-! ### What a result does to the record and to the jacket's verification -/

/-- The cause a FAIL outcome gives the verdict (R138). -/
def EvalFail.verdictCause : EvalFail → FailCause
  | .overpressure => .overpressure
  | .permanent => .permanent
  | .elastic => .elastic

/-- The verdict of a second counted INVALID (R135). -/
def InvalidCause.secondVerdict : InvalidCause → Verdict
  | .leak => .fail .leak
  | _ => .manual .secondInvalid

/-- Counted invalids and verdict after an evaluation (R134 to R136, R138). -/
def Record.takeOutcome (r : Record) : EvalOutcome → Record
  | .pass => { r with verdict := some .pass }
  | .fail cause => { r with verdict := some (.fail cause.verdictCause) }
  | .reference cause => { r with verdict := some (.reference cause) }
  | .invalid cause =>
    if r.spec.isReference then { r with verdict := some (.reference .outOfTolerance) }
    else if r.countedInvalids = 0 then { r with countedInvalids := 1 }
    else { r with countedInvalids := 2, verdict := some cause.secondVerdict }

/-- The record after step 2 of an evaluation: last result, verdict date, counted invalids and verdict (R121, R139, R142). -/
def Record.takeResult (r : Record) (result : LastResult) (date : Option Date) : Record :=
  { r.takeOutcome result.outcome with lastResult := some result, verdictDate := date }

/-- The Verification Unit's fields after an evaluation (R147 to R150). -/
def Verification.take (v : Verification) (date : Option Date) : EvalOutcome → Verification
  | .pass => { v with count := 0 }
  | .fail _ => { v with count := 0 }
  | .reference .inTolerance => { verified := true, date, count := 0 }
  | .reference .outOfTolerance => { v with verified := false, count := 0 }
  | .invalid _ => { v with count := min 3 (v.count + 1) }

/-- The instruction to the jacket (R113, R137). -/
inductive Instruction
  | unload (onClear : OnClear)
  | retest
deriving DecidableEq, Repr

/-- The instruction decided from the outcome, the record's counted invalids and the jacket's count, both as the evaluation has
left them (R137). -/
def decideInstruction (outcome : EvalOutcome) (reference : Bool) (invalids count : Nat) : Instruction :=
  match outcome with
  | .invalid _ =>
    if reference = false ∧ invalids = 1 then
      if count < 3 then .retest else .unload .requeue
    else .unload .route
  | _ => .unload .route

/-! ### Marks (R159, R160) -/

/-- A number below 100 as two digits. -/
def twoDigits (n : Nat) : List Byte := [BitVec.ofNat 8 (0x30 + n / 10), BitVec.ofNat 8 (0x30 + n % 10)]

/-- The pass marks (R159). -/
def passMarks (plantCode : List Byte) (date : Date) (suffix : Option Byte) : List Byte :=
  plantCode ++ [0x20] ++ twoDigits date.month ++ [0x2F] ++ twoDigits (date.year - 2000) ++ suffix.toList

/-- The condemn marks (R160). -/
def condemnMarks (plantCode : List Byte) : List Byte := plantCode ++ [0x20, 0x58, 0x58]

/-- The marks of a record: condemn marks for a FAIL, pass marks for any other verdict (R159, R160). A PASS record has a verdict
date (R142); log entry 21 says what stands for one it cannot lack. -/
def Record.marks (r : Record) (plantCode : List Byte) : List Byte :=
  match r.verdict with
  | some (.fail _) => condemnMarks plantCode
  | _ => passMarks plantCode (r.verdictDate.getD { year := 2000, month := 1, day := 1 }) r.spec.suffix

end Sys2Proof.Machine
end

