-- ==== Sys2Proof/Machine/Jackets.lean ====
section
/-! DEFINITION. The Jacket Sequencers: commands and faults (R94, R95), program starts, blocks and samples (R97 to R107, R110 to
R112), the evaluation (R121) and what follows it (R113), holds and resumes (R115, R116); and the routes of the Order Unit
(R155 to R158). -/
namespace Sys2Proof.Machine

/-! ### Commands -/

/-- Whether a command still stands in a jacket state (R94). A SET also stops standing at a VENT, which withdraws it. -/
def Command.standsIn (s : JacketState) : Command → Bool
  | .set _ _ =>
    match s with
    | .running _ => true
    | _ => false
  | .vent => true
  | .unload => s == .unloading

/-- Whether a command is a SET. -/
def Command.isSet : Command → Bool
  | .set _ _ => true
  | _ => false

/-- A queued command of jacket n that satisfies a test. -/
def QueueEntry.isCommandOf (n : JacketNo) (p : Command → Bool) (e : QueueEntry) : Bool :=
  e.owner == .jacket n &&
    match e.body with
    | .command _ k => p k
    | _ => false

/-- The commands of jacket n that satisfy a test stop standing: an owed copy is cleared, queued copies are removed (R94). -/
def Controller.dropCommands (c : Controller) (n : JacketNo) (p : Command → Bool) : Controller :=
  (c.updJacket n fun j => { j with owedCommand := j.owedCommand.filter fun k => !p k }).withdraw (QueueEntry.isCommandOf n p)

/-- The commands of jacket n that no longer stand in its state are dropped (R94). -/
def Controller.dropStale (c : Controller) (n : JacketNo) : Controller :=
  c.dropCommands n fun k => !k.standsIn (c.jacket n).state

/-- Jacket n makes a VENT, after which no earlier SET of it stands (R94). -/
def Controller.makeVent (c : Controller) (n : JacketNo) : Controller :=
  (c.offerCommand n .vent).dropCommands n Command.isSet

/-- The slot of the record jacket n serves, or a slot no record holds when it serves none (R93). -/
def Controller.servedSlot (c : Controller) (n : JacketNo) : Nat := (c.jacket n).slot.getD Config.registerCapacity

/-- The record jacket n serves (R93). -/
def Controller.served (c : Controller) (n : JacketNo) : Option Record := (c.jacket n).slot.bind c.recordAt

/-- The specification copy of the record jacket n serves (R98). -/
def Controller.servedSpec (c : Controller) (n : JacketNo) : TypeEntry := ((c.served n).map Record.spec).getD .invalid

/-- The current block of jacket n. -/
def Controller.currentBlock (c : Controller) (n : JacketNo) : Block := c.tables.blockAt (c.jacket n).currentBlock

/-- Entry to IDLE or DISABLED: the record slot and both serials are cleared (R93). -/
def Jacket.emptied (s : JacketState) (j : Jacket) : Jacket :=
  { j with state := s, awaited := none, loaded := none, slot := none }

/-! ### Recovery and faults -/

/-- A RUNNING jacket vents and enters RECOVERING with this reason (R111, R115, R117). -/
def Controller.ventInto (c : Controller) (n : JacketNo) (reason : RecoverReason) : Controller :=
  (c.makeVent n).updJacket n fun j => { j with state := .recovering reason, elapsed := 0, acc := .clear }

/-- An early end of the program of jacket n (R111). -/
def Controller.earlyEnd (c : Controller) (n : JacketNo) (cause : EarlyCause) : Controller :=
  (c.updJacket n fun j => { j with earlyEnd := some cause }).ventInto n .early

/-- Whether a jacket in this state may hold its cylinder under pressure: RUNNING or RECOVERING (R95, step 3; R109). -/
def JacketState.pressing : JacketState → Bool
  | .running _ | .recovering _ => true
  | _ => false

/-- Whether a jacket is in FAULT. -/
def JacketState.isFault : JacketState → Bool
  | .fault _ => true
  | _ => false

/-- The record jacket n serves is held and reported when the jacket faults (R95, step 2). -/
def Controller.holdServed (c : Controller) (n : JacketNo) : Controller :=
  match c.served n with
  | none => c
  | some r => (c.holdRecord r.slot .jacketFault).raise .manualDivert r.serial HeldCause.jacketFault.code

/-- Jacket n enters FAULT with cause STATION, SILENT, VENT_TIMEOUT or SUSPECT (R95; log entry 14). The sums and the samples of a record that is
not complete stay as they stand: R100 discards that record and no rule says when its sums are cleared, so this is the model's choice (log entry
35). -/
def Controller.faultJacket (c : Controller) (n : JacketNo) (cause : FaultCause) : Controller :=
  let before := (c.jacket n).state
  if before.isFault then c
  else
    let c1 := (c.updJacket n fun j => { j with state := .fault cause }).holdServed n
    let c2 := c1.updJacket n fun j => { j with slot := none }
    let c3 := if before.pressing then c2.makeVent n else c2
    (c3.dropStale n).raise .jacketFault n.val cause.code

/-! ### Program starts and blocks -/

/-- The settle start a block begins with; a RAMP leaves it as it stands (R98, step 4). -/
def BlockKind.settleStart (k : BlockKind) (before : Option Nat) : Option Nat :=
  match k with
  | .zero | .hold => some 0
  | .vent | .dwell => none
  | .ramp => before

/-- Steps 2 to 5 of the entry to a block (R98). -/
def Jacket.beginBlock (b : Block) (j : Jacket) : Jacket :=
  { j with state := .running b.kind, elapsed := 0, acc := .clear, recordsCompleted := 0, lastMeans := none,
           settleStart := b.kind.settleStart j.settleStart }

/-- The command a block makes on entry: SET for a RAMP (R103), VENT for a VENT (R105). -/
def Controller.blockCommand (c : Controller) (n : JacketNo) (b : Block) : Controller :=
  match b.kind with
  | .ramp => c.offerCommand n (.set (min Config.top16 (rampTarget (c.servedSpec n) b)) b.rate)
  | .vent => c.makeVent n
  | .zero | .hold | .dwell => c

/-- Jacket n enters its current block (R98). A DWELL of duration 0 completes on entry (R106, R107). -/
def Controller.enterBlockDepth : Nat → Controller → JacketNo → Controller
  | 0, c, _ => c
  | k + 1, c, n =>
    let b := c.currentBlock n
    let c1 := (c.updJacket n (Jacket.beginBlock b)).blockCommand n b
    if b.kind = .dwell ∧ b.duration = 0 ∧ b.chain = true then
      Controller.enterBlockDepth k (c1.updJacket n fun j => { j with currentBlock := j.currentBlock + 1 }) n
    else c1

/-- Jacket n enters its current block. Each block that completes on entry leads to a higher index, and the store has 96. -/
def Controller.enterBlock (c : Controller) (n : JacketNo) : Controller := Controller.enterBlockDepth 97 c n

/-- The attempts of the record jacket n serves rise by 1, saturating at 255 (R86, R112, R113, R116). -/
def Controller.countAttempt (c : Controller) (n : JacketNo) : Controller :=
  c.updRecord (c.servedSlot n) fun r => { r with attempts := min 255 (r.attempts + 1) }

/-- Steps 1 to 3 of a program start (R97). -/
def Jacket.beginProgram (j : Jacket) : Jacket :=
  { j with zero := none, hold := none, vent := none, firstPressure := none, earlyEnd := none, onClear := none,
           restartPending := false, currentBlock := j.programStart, sampleAge := 0 }

/-- The program of jacket n starts (R97), and the attempt is counted. -/
def Controller.startProgram (c : Controller) (n : JacketNo) : Controller :=
  ((c.countAttempt n).updJacket n Jacket.beginProgram).enterBlock n

/-! ### After the evaluation -/

/-- Jacket n makes an UNLOAD and enters UNLOADING; its record goes to UNLOADING (R112, R113). -/
def Controller.unload (c : Controller) (n : JacketNo) (onClear : OnClear) : Controller :=
  let c1 := c.updRecord (c.servedSlot n) fun r => { r with state := .unloading }
  (c1.updJacket n fun j => { j with state := .unloading, onClear := some onClear }).offerCommand n .unload

/-- Jacket n acts on the evaluation's instruction (R113). -/
def Controller.carryOut (c : Controller) (n : JacketNo) : Instruction → Controller
  | .unload onClear => c.unload n onClear
  | .retest =>
    if c.lineMoving then c.startProgram n else c.updJacket n fun j => { j with state := .heldVented }

/-- The result an evaluation of record r in jacket n gives (R121 step 1, R139). -/
def Controller.resultOf (c : Controller) (n : JacketNo) (r : Record) : LastResult :=
  let formed := formResult (c.jacket n) r.spec c.line.items.thermalLimit
  { jacket := n, attempt := r.attempts, outcome := formed.1, figures := formed.2 }

/-- The Verification Unit takes a result of jacket n (R121 step 3, R147 to R150). -/
def Controller.verify (c : Controller) (n : JacketNo) (outcome : EvalOutcome) : Controller :=
  let c1 := c.updVerif n fun v => v.take c.line.date outcome
  if outcome = .reference .outOfTolerance then
    c1.raise .calibration n.val (EvalOutcome.reference .outOfTolerance).causeCode
  else c1

/-- The TEST RESULT of the record in a slot is made and offered; an earlier one still owed is replaced and reported
(R121 step 5, R140, R141). -/
def Controller.makeResult (c : Controller) (slot : Nat) (serial : Serial) (owed : Bool) : Controller :=
  let c1 := if owed then c.raise .undelivered serial 32 else c
  (c1.updRecord slot fun r => { r with resultOwed := true }).offerRecord slot

/-- The evaluation of jacket n's cylinder (R121). -/
def Controller.evaluate (c : Controller) (n : JacketNo) : Controller :=
  match c.served n with
  | none => c
  | some r =>
    let result := c.resultOf n r
    let c1 := c.updRecord r.slot fun r => r.takeResult result c.line.date
    let c2 := c1.verify n result.outcome
    let invalids := (r.takeResult result c.line.date).countedInvalids
    let instruction := decideInstruction result.outcome r.spec.isReference invalids (c2.verif n).count
    (c2.makeResult r.slot r.serial r.resultOwed).carryOut n instruction

/-- The current block of jacket n completes (R107). -/
def Controller.completeBlock (c : Controller) (n : JacketNo) : Controller :=
  if (c.currentBlock n).chain then
    (c.updJacket n fun j => { j with currentBlock := j.currentBlock + 1 }).enterBlock n
  else c.evaluate n

/-! ### Samples -/

/-- The accumulator with one more sample (R100). -/
def Accumulator.add (a : Accumulator) (s : Sample) : Accumulator :=
  { level := a.level + s.level, pressure := a.pressure + s.pressure, temperature := a.temperature + s.temperature,
    samples := a.samples + 1 }

/-- Whether a completed record with these means has settled (R101). -/
def Jacket.settled (j : Jacket) (b : Block) (m : Means) : Bool :=
  match j.settleStart, j.lastMeans with
  | some start, some last =>
    decide (b.duration * 100 ≤ j.elapsed - start) && decide (magnitude m.level last.level ≤ b.band)
  | _, _ => false

/-- A record settles in a ZERO, HOLD or VENT block (R102, R104, R105). -/
def Controller.settle (c : Controller) (n : JacketNo) (b : Block) (m : Means) : Controller :=
  match b.kind with
  | .zero => (c.updJacket n fun j => { j with zero := some ⟨m.level, m.temperature⟩ }).completeBlock n
  | .hold =>
    if b.reading then
      let c1 := c.updJacket n fun j => { j with hold := some ⟨m.level - firstOf j.zero, m.pressure⟩ }
      match b.leak with
      | some allowance =>
        if m.pressure + allowance < ((c.jacket n).firstPressure).getD 0 then c1.earlyEnd n .leak else c1.completeBlock n
      | none => c1.completeBlock n
    else c.completeBlock n
  | .vent =>
    if b.chain then c.completeBlock n
    else
      (c.updJacket n fun j => { j with vent := some ⟨m.level - firstOf j.zero, m.temperature⟩ }).completeBlock n
  | .ramp | .dwell => c

/-- The first record completed in a reading HOLD gives the first pressure mean (R104). -/
def Jacket.countRecord (b : Block) (m : Means) (j : Jacket) : Jacket :=
  { j with recordsCompleted := j.recordsCompleted + 1
           firstPressure :=
             if b.isReadingHold = true ∧ j.recordsCompleted = 0 then some m.pressure else j.firstPressure }

/-- A record of samples is complete (R100, R101). The accumulator holds its sums. -/
def Controller.completeRecord (c : Controller) (n : JacketNo) (b : Block) : Controller :=
  let m := recordMeans (c.jacket n).acc b.samples
  let settled := (c.jacket n).settled b m
  let c1 := c.updJacket n (Jacket.countRecord b m)
  if settled then c1.settle n b m
  else if b.maxCount ≤ (c1.jacket n).recordsCompleted then c1.earlyEnd n .unstable
  else c1.updJacket n fun j => { j with lastMeans := some m, acc := .clear }

/-- A sample is accumulated (R100). -/
def Controller.accumulate (c : Controller) (n : JacketNo) (b : Block) (s : Sample) : Controller :=
  let c1 := c.updJacket n fun j => { j with acc := j.acc.add s }
  if b.samples ≤ (c1.jacket n).acc.samples then c1.completeRecord n b else c1

/-- A sample is taken by the current block (R102 to R106). -/
def Controller.blockSample (c : Controller) (n : JacketNo) (s : Sample) : Controller :=
  let b := c.currentBlock n
  let low := decide (s.pressure ≤ c.line.items.zeroThreshold)
  match b.kind with
  | .zero => if low then c.accumulate n b s else c.updJacket n fun j => { j with acc := .clear }
  | .ramp => if rampThreshold (c.servedSpec n) b ≤ s.pressure then c.completeBlock n else c
  | .hold => c.accumulate n b s
  | .vent =>
    if (c.jacket n).settleStart.isSome then c.accumulate n b s
    else if low then (c.updJacket n fun j => { j with settleStart := some j.elapsed }).accumulate n b s
    else c
  | .dwell => c

/-- The first low sample ends a recovery (R112). -/
def Controller.endRecovery (c : Controller) (n : JacketNo) : RecoverReason → Controller
  | .early => c.evaluate n
  | .hold =>
    if (c.jacket n).restartPending then c.startProgram n else c.updJacket n fun j => { j with state := .heldVented }
  | .abort => c.unload n .requeue
  | .restart => c.updJacket n (Jacket.emptied .disabled)

/-- A JACKET SAMPLE is taken by jacket n (R99, R110, R112). -/
def Controller.takeSample (c : Controller) (n : JacketNo) (s : Sample) : Controller :=
  match (c.jacket n).state with
  | .running _ =>
    let c1 := c.updJacket n fun j => { j with sampleAge := 0 }
    if (c.servedSpec n).pressureLimit < s.pressure then
      (c1.earlyEnd n .overpressure).raise .overpressure n.val 0
    else c1.blockSample n s
  | .recovering reason =>
    let c1 := c.updJacket n fun j => { j with sampleAge := 0 }
    if s.pressure ≤ c.line.items.zeroThreshold then c1.endRecovery n reason else c1
  | _ => c

/-! ### Hold and resume -/

/-- Jacket n at the line's entry to HOLDING (R115). -/
def Controller.jacketHold (c : Controller) (n : JacketNo) : Controller :=
  match (c.jacket n).state with
  | .running _ => c.ventInto n .hold
  | .recovering .hold => c.updJacket n fun j => { j with restartPending := false }
  | _ => c

/-- Jacket n when the line leaves HOLDING for RUNNING or STOPPING (R116). -/
def Controller.jacketResume (c : Controller) (n : JacketNo) : Controller :=
  match (c.jacket n).state with
  | .heldVented => c.startProgram n
  | .recovering .hold => c.updJacket n fun j => { j with restartPending := true }
  | _ => c

/-! ### The Order Unit's routes -/

/-- The record in a slot takes a state and makes its orders (R155, R157). -/
def Controller.routeTo (c : Controller) (slot : Nat) (s : RecordState) (orders : List Order) : Controller :=
  (c.updRecord slot fun r => { r with state := s }).makeOrders slot orders

/-- The route after a verdict (R155, R156). A verdict that never reaches the Order Unit leaves the record as it stands. -/
def Controller.route (c : Controller) (slot : Nat) : Controller :=
  match c.recordAt slot with
  | none => c
  | some r =>
    let stamp : List Order := [.gate .stamp, .stamp (r.marks c.line.items.plantCode)]
    let scrap : List Order := [.gate .scrap, .scrap]
    match r.verdict with
    | some .pass => c.routeTo slot .stamping stamp
    | some (.fail _) =>
      if r.spec.isReference = false ∧ r.returnCondemned = some true then c.routeTo slot .stamping stamp
      else c.routeTo slot .scrapping scrap
    | some (.manual .secondInvalid) => c.routeTo slot .leaving [.gate .manual]
    | some (.reference _) => c.routeTo slot .leaving [.gate .reference]
    | _ => c

end Sys2Proof.Machine
end

