-- ==== Sys2Proof/Machine/Outcomes.lean ====
section
/-! DEFINITION. The outcomes of the part's own frames: what each owner does with a delivered or undelivered frame (R15, R57, R89,
R90, R96, R165), and the removal of entries from the outstanding list (R11, R12, R14). -/
namespace Sys2Proof.Machine

/-- An undelivered order holds its record and is reported (R89, R90, R165). -/
def Controller.orderLost (c : Controller) (r : Record) (body : Body) : Controller :=
  (c.holdRecord r.slot .undelivered).raise .undelivered r.serial body.kind

/-- A jacket in AWAITING returns to IDLE without its cylinder (R88, R89). -/
def Controller.freeAwaiting (c : Controller) (n : JacketNo) : Controller :=
  if (c.jacket n).state = .awaiting then c.updJacket n (Jacket.emptied .idle) else c

/-- The undelivered outcome of a gate order to JACKET n at a ROUTED record (R89). -/
def Controller.jacketGateLost (c : Controller) (r : Record) (n : JacketNo) : Controller :=
  let c1 := (c.holdRecord r.slot .undelivered).freeAwaiting n
  (c1.raise .undelivered r.serial (Body.gate r.serial (.jacket n)).kind).jacketPass n

/-- Whether a record's state awaits the outcome of an order (R42). -/
def Record.awaitsOutcome (r : Record) : Body → Bool
  | .gate _ (.jacket n) => r.state == .routed && r.jacket == some n
  | .gate _ .stamp | .stampOrder _ _ => r.state == .stamping
  | .gate _ .scrap | .scrapOrder _ => r.state == .scrapping
  | .gate _ _ => r.state == .leaving
  | _ => false

/-- The outcome of an order at a record that awaits it: gate orders to a jacket (R89), to the stamp or scrap cell and their orders
(R165), to an outgoing lane (R90). -/
def Controller.orderOutcome (c : Controller) (r : Record) (body : Body) (delivered : Bool) : Controller :=
  match body with
  | .gate _ (.jacket n) => if delivered then c else c.jacketGateLost r n
  | .gate _ .stamp | .gate _ .scrap | .stampOrder _ _ | .scrapOrder _ => if delivered then c else c.orderLost r body
  | .gate _ _ => if delivered then c.askRelease r.slot else c.orderLost r body
  | _ => c

/-- The outcome of a frame owned by the record in a slot (R15, R57). An order that stands no longer for its record is awaited in
no state (R84). -/
def Controller.recordOutcome (c : Controller) (slot : Nat) (e : OutEntry) (delivered : Bool) : Controller :=
  match c.recordAt slot with
  | none => c
  | some r =>
    match e.body with
    | .testResult _ _ => if delivered then c else c.raise .undelivered r.serial e.body.kind
    | body =>
      if e.stands = true ∧ r.releasePending = false ∧ r.awaitsOutcome body = true then
        c.orderOutcome r body delivered
      else c

/-- The undelivered outcome of an INFEED frame (R15). -/
def Controller.infeedLost (c : Controller) (o : InfeedOrder) : Controller :=
  let c1 := c.raise .undelivered 0 16
  if c1.mark.value.order = o then c1.offerInfeed o .repeated else c1

/-- The undelivered outcome of a JACKET COMMAND (R96). -/
def Controller.commandLost (c : Controller) (n : JacketNo) : Controller :=
  match (c.jacket n).state with
  | .running _ | .recovering _ | .heldVented | .unloading => c.faultJacket n .station
  | .disabled | .idle | .awaiting | .fault _ => c

/-- An outcome handed to the owner of a removed entry (R15). -/
def Controller.outcome (c : Controller) (e : OutEntry) (delivered : Bool) : Controller :=
  match e.owner with
  | .record slot => c.recordOutcome slot e delivered
  | .jacket n => if delivered then c else c.commandLost n
  | .infeed =>
    match e.body with
    | .infeed o => if delivered then c else c.infeedLost o
    | _ => c
  | .recordless serial => if delivered then c else c.raise .undelivered serial 17
  | .notice _ | .reply | .lost => c

/-- The oldest entry is removed, and its outcome handed on (R11, R12, R14). -/
def Controller.popOldest (c : Controller) (delivered : Bool) : Controller :=
  match c.ring.outstanding with
  | [] => c
  | e :: rest => (c.setOutstanding rest).outcome e delivered

/-- This many entries removed as undelivered, oldest first. -/
def Controller.popLost : Nat → Controller → Controller
  | 0, c => c
  | n + 1, c => Controller.popLost n (c.popOldest false)

/-- Return matching (R11): the entries older than the match are removed as undelivered, then the match by its taken mark. -/
def Controller.matchReturn (c : Controller) (sequence : Nat) (taken : Bool) : Controller :=
  match c.ring.outstanding.findIdx? fun e => e.sequence == sequence with
  | none => c
  | some k => (Controller.popLost k c).popOldest taken

/-- Whether an entry's age has reached the ring return time (R12). -/
def Controller.expired (c : Controller) (e : OutEntry) : Bool :=
  decide (c.line.items.returnTime ≤ c.ring.clock - e.start)

/-- Entries whose age has reached the return time removed in turn, oldest first, at most this many (R12). -/
def Controller.expireDepth : Nat → Controller → Controller
  | 0, c => c
  | n + 1, c =>
    match c.ring.outstanding with
    | [] => c
    | e :: _ => if c.expired e then Controller.expireDepth n (c.popOldest false) else c

/-- The return timeout (R12). -/
def Controller.expire (c : Controller) : Controller := Controller.expireDepth c.ring.outstanding.length c

/-- Every entry removed as undelivered (R14). -/
def Controller.flushOutstanding (c : Controller) : Controller := Controller.popLost c.ring.outstanding.length c

end Sys2Proof.Machine
end

