-- ==== Sys2Proof/Machine/LineControl.lean ====
section
/-! DEFINITION. Line Control: entry to HOLDING and its purge (R16, R172), ring status changes (R13, R14), START, STOP, RESUME and
RESTART (R170, R171, R173, R174, with R17, R62, R120), the plant date and the configuration items (R175, R176). -/
namespace Sys2Proof.Machine

/-! ### The hold purge (R16) -/

/-- The order a removed frame carries, if it is a record's order. -/
def Body.order? : Body → Option Order
  | .gate _ d => some (.gate d)
  | .stampOrder _ marks => some (.stamp marks)
  | .scrapOrder _ => some .scrap
  | _ => none

/-- A removed order becomes owed again, ahead of the orders made after it (R16). -/
def Controller.restoreOrder (c : Controller) (slot : Nat) (o : Order) : Controller :=
  c.updRecord slot fun r => { r with owedOrders := o :: r.owedOrders }

/-- A removed command becomes owed again, unless it no longer stands or a later command is owed (R16, R94). -/
def Controller.restoreCommand (c : Controller) (n : JacketNo) (k : Command) : Controller :=
  c.updJacket n fun j =>
    if k.standsIn j.state = true ∧ j.owedCommand = none then { j with owedCommand := some k } else j

/-- A removed INFEED RELEASE becomes owed again with origin FRESH (R54), unless a frame is owed already (log entry 11). -/
def Controller.restoreInfeed (c : Controller) : Controller :=
  if c.mark.owed = none then c.setMark { c.mark with owed := some { order := .release, origin := .fresh } } else c

/-- The owner of a removed frame takes its owed mark again; a NOTICE and a recordless order are dealt with apart (R16). -/
def Controller.restoreOwed (e : QueueEntry) (c : Controller) : Controller :=
  match e.owner, e.body with
  | .record slot, b =>
    match b.order? with
    | some o => c.restoreOrder slot o
    | none => c
  | .jacket n, .command _ k => c.restoreCommand n k
  | .infeed, _ => c.restoreInfeed
  | _, _ => c

/-- What the placement of a NOTICE took from its class, if it is of this class: the pending flag, the count, the detail, the test mark, and
an enable that is still the frame's to give back (R179). -/
def QueueEntry.takenFrom (cls : NoticeClass) (e : QueueEntry) : Option Notice :=
  match e.body with
  | .notice cls' count subject cause =>
    if cls' = cls then
      some { pending := true, enable := e.clearedEnable, count, subject, cause, testMark := e.testMark }
    else none
  | _ => none

/-- A class takes back what the placements of its removed NOTICEs took, as if they were one; its detail and its test mark are those of
its latest raise, which the latest frame carries unless the class has been raised since (R177, R179; log entry 12). -/
def Controller.restoreNotice (removed : List QueueEntry) (c : Controller) (cls : NoticeClass) : Controller :=
  let taken := removed.filterMap (QueueEntry.takenFrom cls)
  match taken.getLast? with
  | none => c
  | some latest =>
    c.updNotice cls fun s =>
      let raised := if s.count = 0 then latest else s
      { pending := true
        enable := s.enable || latest.enable
        count := min 255 ((taken.map Notice.count).sum + s.count)
        subject := raised.subject
        cause := raised.cause
        testMark := raised.testMark }

/-- A removed recordless gate order is dropped and reported (R16). -/
def Controller.dropRecordless (c : Controller) (e : QueueEntry) : Controller :=
  match e.owner with
  | .recordless serial => c.raise .undelivered serial 17
  | _ => c

/-- The hold purge (R16; log entry 10): the frames of the hold set are removed, their owners take their owed marks again, and the
freed entries run the owed arbitration. -/
def Controller.purge (c : Controller) : Controller :=
  let removed := c.ring.queue.filter fun e => e.body.holdSet
  if removed = [] then c
  else
    let c1 := c.setQueue (c.ring.queue.filter fun e => !e.body.holdSet)
    let c2 := removed.foldr Controller.restoreOwed c1
    let c3 := noticeClasses.foldl (Controller.restoreNotice removed) c2
    (removed.foldl Controller.dropRecordless c3).afterFreeing

/-! ### Hold causes (R172, R173) -/

/-- A hold cause made present or removed. -/
def Controller.setCause (c : Controller) (cause : HoldCause) (present : Bool) : Controller :=
  match cause with
  | .lineHold => { c with line := { c.line with causeLineHold := present } }
  | .ring => { c with line := { c.line with causeRing := present } }

/-- Entry to HOLDING (R172). The jackets act in number order, which is the model's choice where R115 and R172 give no order (log entry 34). -/
def Controller.enterHolding (c : Controller) (cause : HoldCause) : Controller :=
  let c1 := { c with line := { c.line with holdFrom := c.line.state, state := .holding } }
  let c2 := jacketNumbers.foldl Controller.jacketHold (c1.setCause cause true).purge
  (c2.judge false).raise .lineHold 0 cause.code

/-- A hold cause is added (R172). -/
def Controller.addCause (c : Controller) (cause : HoldCause) : Controller :=
  if c.line.state = .holding then c.setCause cause true else c.enterHolding cause

/-! ### Ring status (R13, R14) -/

/-- Another ring status. -/
def Controller.setRingStatus (c : Controller) (s : RingStatus) : Controller :=
  { c with ring := { c.ring with status := s } }

/-- The ring status changes to DOWN (R14); in bypass the change reaches no other block (R18). -/
def Controller.ringGoesDown (c : Controller) : Controller :=
  let c1 := c.setRingStatus .down
  if c.bypass then c1 else (c1.addCause .ring).flushOutstanding

/-- The ring status changes to UP (R13, R173). -/
def Controller.ringGoesUp (c : Controller) : Controller :=
  let c1 := c.setRingStatus .up
  if c.bypass then c1 else (c1.setCause .ring false).raise .ringRestored 0 0

/-! ### START, STOP, RESUME (R170, R171, R173) -/

/-- Whether exactly one address holds a role. -/
def Controller.heldOnce (c : Controller) (r : Role) : Bool := c.tables.stations.toList.countP (· == r) == 1

/-- Whether the station map is complete (R34). -/
def Controller.mapComplete (c : Controller) : Bool :=
  [Role.master, .entry, .scale, .visual, .router, .stamp, .scrap].all c.heldOnce

/-- START (R170): the reason of a refusal, or the part after it. -/
def Controller.startLine (c : Controller) : Except Reason Controller :=
  if c.line.state = .running ∨ c.line.state = .holding then .error .lineState
  else if c.line.date = none then .error .noDate
  else if c.mapComplete = false then .error .noMap
  else if c.ring.status = .down then .error .ringDown
  else .ok ((c.setLineState .running).judge false).jacketPasses

/-- STOP (R171). -/
def Controller.stopLine (c : Controller) : Except Reason Controller :=
  if c.line.state ≠ .running then .error .lineState
  else if c.records = [] then .ok ((c.setLineState .stopped).judge false)
  else .ok ((c.setLineState .stopping).judge false).jacketPasses

/-- What an accepted RESUME does to the line state: the hold-from state is taken, or STOPPED with LINE_STOPPED raised when a drain has emptied
the register; the hold-from state then becomes STOPPED (R173; log entry 15). -/
def Controller.resumeState (c : Controller) : Controller :=
  if c.line.holdFrom = .stopping ∧ c.records = [] then
    { c with line := { c.line with state := .stopped, holdFrom := .stopped } }.raise .lineStopped 0 0
  else { c with line := { c.line with state := c.line.holdFrom, holdFrom := .stopped } }

/-- RESUME (R173). The jackets act in number order, which is the model's choice where R116 gives no order (log entry 34). -/
def Controller.resumeLine (c : Controller) : Except Reason Controller :=
  if c.line.state ≠ .holding then .error .lineState
  else if c.line.causeLineHold = true ∨ c.line.causeRing = true then .error .holdActive
  else
    let c1 := (c.resumeState.judge false).arbitrate
    .ok (if c1.lineMoving then (jacketNumbers.foldl Controller.jacketResume c1).jacketPasses else c1)

/-! ### RESTART (R174) -/

/-- The line's own part of RESTART (R174). -/
def LineControl.restart (l : LineControl) : LineControl :=
  if l.state = .holding then
    if l.causeLineHold = true ∨ l.causeRing = true then { l with holdFrom := .stopped } else { l with state := .stopped }
  else l

/-- A class at RESTART: all but its enable is cleared (R177). -/
def Notice.restart (s : Notice) : Notice := { Notice.powerOn with enable := s.enable }

/-- A jacket at RESTART, its commands apart (R120). -/
def Jacket.restart (j : Jacket) : Jacket :=
  let j1 := { j with restartPending := false, owedCommand := j.owedCommand.filter fun k => k == Command.vent }
  match j.state with
  | .running _ => { j1 with state := .recovering .restart, elapsed := 0, slot := none }
  | .recovering _ => { j1 with state := .recovering .restart, slot := none }
  | _ => j1.emptied .disabled

/-- A frame RESTART leaves in the insertion queue: a VENT (R17). -/
def QueueEntry.isVent (e : QueueEntry) : Bool :=
  match e.body with
  | .command _ .vent => true
  | _ => false

/-- An outstanding entry at RESTART: jackets keep theirs, and a recordless order had no owner (R17, R91). -/
def OutEntry.restart (e : OutEntry) : OutEntry :=
  match e.owner with
  | .record _ | .infeed | .notice _ | .reply => { e with owner := .lost }
  | .jacket _ | .recordless _ | .lost => e

/-- The state of every block after RESTART, before any frame is offered (R174, R62 steps 1 to 3, R17, R120, R177). -/
def Controller.restartBlocks (c : Controller) : Controller :=
  { c with
    ring := { c.ring with queue := c.ring.queue.filter QueueEntry.isVent
                          outstanding := c.ring.outstanding.map OutEntry.restart }
    records := []
    mark := { c.mark with value := .held, owed := none }
    jackets := c.jackets.map Jacket.restart
    line := c.line.restart
    notices := c.notices.map Notice.restart
    responder := { c.responder with frozen := none } }

/-- The VENT of a jacket that RESTART found RUNNING or RECOVERING (R120). -/
def Controller.restartVent (c : Controller) (n : JacketNo) : Controller :=
  if (c.jacket n).state = .recovering .restart then c.offerCommand n .vent else c

/-- RESTART (R174; log entry 16): every block's state, the arbitration of the emptied queue, then the frames of R17 in their order;
the reply follows. -/
def Controller.restartLine (c : Controller) : Except Reason Controller :=
  if c.line.state = .running ∨ c.line.state = .stopping then .error .lineState
  else
    let c1 := c.restartBlocks.afterFreeing
    .ok ((jacketNumbers.foldl Controller.restartVent c1).offerInfeed .hold .fresh)

/-! ### Plant date and configuration (R175, R176) -/

/-- SET DATE (R175, R145). -/
def Controller.setDate (c : Controller) (d : Date) : Except Reason Controller :=
  if d.valid = false then .error .badField
  else
    let c1 := { c with line := { c.line with date := some d } }
    if c.line.date = some d then .ok c1
    else .ok { c1 with verification := c1.verification.map fun v => { v with verified := false } }

/-- A configuration item with a value in its range, or none (R176). -/
def Items.set (i : Items) (code : Nat) (value : List Byte) : Option Items :=
  let inRange (low high : Nat) (put : Nat → Items) : Option Items :=
    match value with
    | [a, b] => if low ≤ read2 a b ∧ read2 a b ≤ high then some (put (read2 a b)) else none
    | _ => none
  match code with
  | 0 => if value.length = 4 ∧ value.all isAlnum = true then some { i with plantCode := value } else none
  | 1 => inRange 5 250 fun v => { i with returnTime := v }
  | 2 => inRange 100 10000 fun v => { i with sampleAgeLimit := v }
  | 3 => inRange 0 11 fun v => { i with advanceWindow := v }
  | 4 => inRange 1 50 fun v => { i with thermalLimit := v }
  | 5 => inRange 10 1000 fun v => { i with zeroThreshold := v }
  | _ => none

/-- SET CONFIG (R176): item code, line state, value. -/
def Controller.setConfig (c : Controller) (code : Nat) (value : List Byte) : Except Reason Controller :=
  if 5 < code then .error .badField
  else if c.line.state ≠ .stopped then .error .lineState
  else
    match c.line.items.set code value with
    | none => .error .badField
    | some items => .ok { c with line := { c.line with items } }

end Sys2Proof.Machine
end

