-- ==== Sys2Proof/Machine/Reports.lean ====
section
/-! DEFINITION. The station reports: the screening of an entry tag (R44 to R51), mass and visual dispositions (R63 to R72), arrivals and
clears at a jacket (R85 to R88, R114), stamp and scrap reports (R161, R162, R164). -/
namespace Sys2Proof.Machine

/-! ### Screening an entry tag -/

/-- Whether a window covers a serial (R23). -/
def Window.covers (w : Window) (serial : Serial) : Bool :=
  w.valid && decide (w.base ≤ serial) && decide (serial < w.base + 2 ^ w.k)

/-- The valid window that covers a serial (R25). -/
def Tables.windowOf (t : Tables) (serial : Serial) : Option Window := t.windows.toList.find? fun w => w.covers serial

/-- A gate order made without a record (R50). -/
def Controller.gateOnly (c : Controller) (serial : Serial) (lane : GateDest) : Controller :=
  (c.enqueue (.gate serial lane) (.recordless serial)).judge false

/-- The lowest slot no record holds (R40). -/
def Controller.freeSlot (c : Controller) : Nat :=
  ((List.range Config.registerCapacity).find? fun s => (c.recordAt s).isNone).getD Config.registerCapacity

/-- The record admission makes (R51). -/
def admitted (slot : Nat) (tag : EntryTag) (e : TypeEntry) (w : Option Window) : Record :=
  { slot, serial := tag.serial, typeCode := tag.typeCode, spec := e, owner := w.map Window.owner,
    returnCondemned := w.map Window.returnCondemned, tare := tag.tare, lastYear := tag.lastYear,
    lastMonth := tag.lastMonth, state := .admitted, heldCause := none, mass := none, findings := none, jacket := none,
    countedInvalids := 0, attempts := 0, verdict := none, verdictDate := none, lastResult := none, owedOrders := [],
    resultOwed := false, stampProgress := none, releasePending := false }

/-- Admission (R51). -/
def Controller.admission (c : Controller) (tag : EntryTag) (e : TypeEntry) (w : Option Window) : Controller :=
  ({ c with records := c.records ++ [admitted c.freeSlot tag e w] }).judge false

/-- The last test date's month number (R48). -/
def EntryTag.monthNumber (tag : EntryTag) : Nat := tag.lastYear * 12 + (tag.lastMonth - 1)

/-- Whether the tag's last test date is usable on a plant date (R48). -/
def EntryTag.dateUsable (tag : EntryTag) (plant : Date) : Bool :=
  decide (1 ≤ tag.lastMonth) && decide (tag.lastMonth ≤ 12) && decide (tag.lastYear ≤ 99) &&
    decide (tag.monthNumber ≤ plant.monthNumber)

/-- Whether a cylinder is due (R49). -/
def EntryTag.due (tag : EntryTag) (plant : Date) (advance interval : Nat) : Bool :=
  decide (tag.monthNumber + 12 * interval ≤ plant.monthNumber + advance)

/-- The outcome of the screening (03, section 3.2). -/
inductive Screening
  | gate (lane : GateDest)
  | duplicate
  | admission (entry : TypeEntry) (window : Option Window)
deriving DecidableEq, Repr

/-- The checks of R45 to R49 in order. The plant date is set whenever a tag is acted on (R142); log entry 21 says what an unset
date would give. -/
def Controller.screen (c : Controller) (tag : EntryTag) : Screening :=
  if tag.status ≠ 0 then .gate .manual
  else
    match c.tables.types[tag.typeCode]? with
    | none => .gate .manual
    | some e =>
      if e.valid = false then .gate .manual
      else if (c.recordOf tag.serial).isSome then .duplicate
      else if e.isReference then .admission e none
      else
        match c.tables.windowOf tag.serial, c.line.date with
        | none, _ => .gate .returnLane
        | some _, none => .gate .manual
        | some w, some plant =>
          if tag.dateUsable plant = false then .gate .manual
          else if tag.due plant c.line.items.advanceWindow e.interval then .admission e (some w)
          else .gate .fill

/-- Whether a tag can be acted on (R44). -/
def Controller.actsOnTags (c : Controller) : Bool :=
  c.line.state == .running && decide (c.records.length < Config.registerCapacity) && normalRoom c.ring.queue

/-- An ENTRY TAG at the register (R44 to R51). -/
def Controller.takeTag (c : Controller) (tag : EntryTag) : Controller :=
  if c.actsOnTags then
    match c.screen tag with
    | .gate lane => c.gateOnly tag.serial lane
    | .duplicate => (c.gateOnly tag.serial .manual).raise .duplicateSerial tag.serial 0
    | .admission e w => c.admission tag e w
  else c.judge false

/-! ### Reports at the register -/

/-- The record that awaits a report in this state, or the cause that makes the report stray (R55, R56). -/
def Controller.awaiting (c : Controller) (serial : Serial) (s : RecordState) : Except StrayCause Record :=
  match c.recordOf serial with
  | none => .error .unknownSerial
  | some r => if r.state = s ∧ r.releasePending = false then .ok r else .error .wrongState

/-- A disposition condemns the record in a slot (R67). -/
def Controller.condemn (c : Controller) (slot : Nat) (cause : FailCause) : Controller :=
  (c.updRecord slot fun r => { r with verdict := some (.fail cause) }).route slot

/-- A change of mass in permille of the tare (R64). -/
def massPermille (difference tare : Nat) : Nat := divRound (difference * 1000) tare

/-- The outcomes of the mass judgment (R65). -/
inductive MassJudgment
  | noTare
  | loss
  | gain
  | within
deriving DecidableEq, Repr

/-- The mass judgment of tare t and mass m (R64, R65). -/
def judgeMass (e : TypeEntry) (t m : Nat) : MassJudgment :=
  if t = 0 then .noTare
  else if m < t ∧ e.massLoss < massPermille (t - m) t then .loss
  else if t < m ∧ e.massGain < min 1000 (massPermille (m - t) t) then .gain
  else .within

/-- A MASS READING at the register (R63, R65). -/
def Controller.takeMass (c : Controller) (serial : Serial) (mass : Nat) : Controller :=
  match c.awaiting serial .admitted with
  | .error cause => c.stray .scale serial cause
  | .ok r =>
    let c1 := c.updRecord r.slot fun r => { r with mass := some mass }
    let weighed := c1.updRecord r.slot fun r => { r with state := .weighed }
    if r.spec.isReference then weighed
    else
      match judgeMass r.spec r.tare mass with
      | .noTare => c1.divert r.slot (.manual .noTare) .manual
      | .loss => c1.condemn r.slot .massLoss
      | .gain => c1.divert r.slot (.manual .massGain) .manual
      | .within => weighed

/-- Place of an action in the order of R26, the highest 3. -/
def Action.rank : Action → Nat
  | .accept => 0
  | .rework => 1
  | .condemn => 2
  | .manual => 3

/-- The governing action of a list of codes (R70). -/
def Tables.governing (t : Tables) (codes : List Nat) : Action :=
  (codes.map fun code => (t.defects[code]?).getD .manual).foldl (fun a b => if a.rank < b.rank then b else a) .accept

/-- VISUAL FINDINGS at the register (R69 to R72). -/
def Controller.takeFindings (c : Controller) (serial : Serial) (codes : List Nat) : Controller :=
  if 8 < codes.length then c.stray .visual serial .malformed
  else
    match c.awaiting serial .weighed with
    | .error cause => c.stray .visual serial cause
    | .ok r =>
      let c1 := c.updRecord r.slot fun r => { r with findings := some codes }
      if r.spec.isReference then c1.enterWaiting r.slot
      else
        match c.tables.governing codes with
        | .manual => c1.divert r.slot (.manual .defect) .manual
        | .condemn => c1.condemn r.slot .defect
        | .rework => c1.divert r.slot .rework .rework
        | .accept => c1.enterWaiting r.slot

/-- A STAMP REPORT at the register, outcome 0 DONE or 1 STOPPED (R161, R162). -/
def Controller.takeStamp (c : Controller) (serial : Serial) (outcome struck : Nat) : Controller :=
  if 1 < outcome ∨ 12 < struck then c.stray .stamp serial .malformed
  else
    match c.awaiting serial .stamping with
    | .error cause => c.stray .stamp serial cause
    | .ok r =>
      let count := (r.marks c.line.items.plantCode).length
      if outcome = 0 ∧ struck = count then
        let c1 := (c.updRecord r.slot fun r => { r with state := .leaving }).cancelOrders r.slot
        c1.makeOrders r.slot [.gate (if r.verdict = some .pass then .fill else .returnLane)]
      else
        let c1 := c.updRecord r.slot fun r => { r with stampProgress := some (struck, count) }
        (c1.holdRecord r.slot .stampStopped).raise .manualDivert serial HeldCause.stampStopped.code

/-- A SCRAP REPORT at the register, outcome 0 DONE or 1 REFUSED (R164). -/
def Controller.takeScrap (c : Controller) (serial : Serial) (outcome : Nat) : Controller :=
  if 1 < outcome then c.stray .scrap serial .malformed
  else
    match c.awaiting serial .scrapping with
    | .error cause => c.stray .scrap serial cause
    | .ok r =>
      if outcome = 0 then (c.cancelOrders r.slot).askRelease r.slot
      else (c.holdRecord r.slot .scrapRefused).raise .manualDivert serial HeldCause.scrapRefused.code

/-! ### Reports at a jacket -/

/-- The role of a jacket's station in a STRAY_REPORT, whose code is all that the detail carries (R177). -/
def strayJacket (n : JacketNo) : Role := .jacket n .small

/-- A matching arrival at jacket n (R86). -/
def Controller.arrive (c : Controller) (n : JacketNo) : Controller :=
  let slot := c.servedSlot n
  let c1 := (c.updRecord slot fun r => { r with state := .testing }).cancelOrders slot
  let c2 := c1.updJacket n fun j => { j with loaded := j.awaited, awaited := none }
  if c2.lineMoving then c2.startProgram n else c2.updJacket n fun j => { j with state := .heldVented }

/-- The states in which a record named by a misroute is held (R87, step 2). -/
def RecordState.misroutes : RecordState → Bool
  | .admitted | .weighed | .waiting | .routed | .stamping | .scrapping | .leaving => true
  | .testing | .unloading | .manualHeld => false

/-- The record that carries the serial of a misroute is held, and the jacket that awaited it is released (R87 step 2, R88). -/
def Controller.holdMisrouted (c : Controller) (r : Record) : Controller :=
  if r.state.misroutes = true ∧ r.releasePending = false then
    let c1 := c.holdRecord r.slot .misroute
    match r.state, r.jacket with
    | .routed, some m => (c1.freeAwaiting m).jacketPass m
    | _, _ => c1
  else c

/-- A misroute: serial s arrives at jacket n, which awaits another (R87). -/
def Controller.misroute (c : Controller) (n : JacketNo) (serial : Serial) : Controller :=
  let c1 := c.holdRecord (c.servedSlot n) .misroute
  let c2 :=
    match c1.recordOf serial with
    | none => c1
    | some r => c1.holdMisrouted r
  let c3 := c2.updJacket n fun j =>
    { j with state := .fault .misroute, loaded := some serial, awaited := none, slot := none }
  c3.raise .jacketFault n.val FaultCause.misroute.code

/-- A JACKET ARRIVAL at jacket n (R85). -/
def Controller.takeArrival (c : Controller) (n : JacketNo) (serial : Serial) : Controller :=
  if (c.jacket n).state = .awaiting then
    if (c.jacket n).awaited = some serial then c.arrive n else c.misroute n serial
  else c.stray (strayJacket n) serial .wrongState

/-- What jacket n does at the JACKET CLEAR of its cylinder: FAULT(SUSPECT) when its count is 3, else IDLE (R114, step 2). -/
def Controller.finishUnload (c : Controller) (n : JacketNo) : Controller :=
  if (c.verif n).count = 3 then
    (c.updJacket n fun j => { j with slot := none, loaded := none }).faultJacket n .suspect
  else c.updJacket n (Jacket.emptied .idle)

/-- A JACKET CLEAR at jacket n (R114). The jacket pass finds no record eligible unless the jacket is IDLE (R77). -/
def Controller.takeClear (c : Controller) (n : JacketNo) (serial : Serial) : Controller :=
  let j := c.jacket n
  if j.loaded = some serial ∧ j.state = .unloading then
    let c1 := (c.dropCommands n fun k => k == .unload).finishUnload n
    let c2 :=
      match j.onClear with
      | some .route => c1.route (c.servedSlot n)
      | some .requeue => c1.enterWaiting (c.servedSlot n)
      | none => c1
    c2.jacketPass n
  else if j.loaded = some serial ∧ j.state.isFault = true then c.updJacket n fun j => { j with loaded := none }
  else c.stray (strayJacket n) serial .wrongState

end Sys2Proof.Machine
end

