-- ==== Sys2Proof/Machine/TableStore.lean ====
section
/-! DEFINITION. The Table Store: the judgment of each record of a TABLE WRITE (R21, R24, R26, R28, R33), the write of a request's records
(R35 to R37), and TABLE READ (R38). -/
namespace Sys2Proof.Machine

/-! ### Enumerated values of a record (R182) -/

/-- The size class of a code. -/
def sizeOfCode : Nat → Option SizeClass
  | 0 => some .small
  | 1 => some .large
  | _ => none

/-- The action of a code. -/
def actionOfCode : Nat → Option Action
  | 0 => some .accept
  | 1 => some .rework
  | 2 => some .condemn
  | 3 => some .manual
  | _ => none

/-- The block kind of a code. -/
def kindOfCode : Nat → Option BlockKind
  | 0 => some .zero
  | 1 => some .ramp
  | 2 => some .hold
  | 3 => some .vent
  | 4 => some .dwell
  | _ => none

/-- The jacket of a number 0 to 7. -/
def jacketOfNumber (n : Nat) : Option JacketNo := if h : n < 8 then some ⟨n, h⟩ else none

/-- The role of a station map record: a code of the nine, with a jacket number and a size class in range for JACKET
(R33, check 1). -/
def StationRecord.role? (r : StationRecord) : Option Role :=
  match r.role with
  | 0 => some .none
  | 1 => some .master
  | 2 => some .entry
  | 3 => some .scale
  | 4 => some .visual
  | 5 => some .router
  | 6 =>
    match jacketOfNumber r.number, sizeOfCode r.size with
    | some n, some size => some (.jacket n size)
    | _, _ => none
  | 7 => some .stamp
  | 8 => some .scrap
  | _ => none

/-- Whether a value lies in a range. -/
def inRange (low high x : Nat) : Bool := decide (low ≤ x) && decide (x ≤ high)

/-! ### Records of the five tables -/

/-- The reference part a type record carries: absent when both figures are 0 (R182). -/
def TypeRecord.refPart (r : TypeRecord) : Option RefPart :=
  if r.expected = 0 ∧ r.tolerance = 0 then none else some { expected := r.expected, tolerance := r.tolerance }

/-- The entry a type record with valid set would write, if its size class is one of the two. -/
def TypeRecord.entry? (r : TypeRecord) : Option TypeEntry :=
  (sizeOfCode r.size).map fun size =>
    { valid := true, size, ptest := r.ptest, window := r.window, overpressure := r.overpressure,
      ratioLimit := r.ratioLimit, ree := if r.ree = 0 then none else some r.ree, massLoss := r.massLoss,
      massGain := r.massGain, interval := r.interval, programStart := r.programStart,
      suffix := if r.suffix = 0 then none else some r.suffix, reference := r.refPart }

/-- The ranges of R20. -/
def TypeEntry.fieldsInRange (e : TypeEntry) : Bool :=
  inRange 1000 60000 e.ptest && inRange 1 50 e.window && inRange 1000 1200 e.overpressure &&
  inRange 1 1000 e.ratioLimit && e.ree.all (inRange 1 65535) && inRange 0 500 e.massLoss &&
  inRange 0 500 e.massGain && inRange 1 15 e.interval && inRange 0 95 e.programStart && e.suffix.all isMarkCharacter &&
  e.reference.all fun p => inRange 1 65535 p.expected && inRange 1 65535 p.tolerance

/-- A type record judged (R21): the entry it writes. -/
def judgeType (t : Tables) (r : TypeRecord) : Except Reason TypeEntry :=
  if r.valid = false then .ok .invalid
  else
    match r.entry? with
    | none => .error .badField
    | some e =>
      if e.fieldsInRange = false then .error .badField
      else if t.chainOk e.programStart = false then .error .badProgram
      else .ok e

/-- Whether two windows cover a serial in common. -/
def Window.overlaps (a b : Window) : Bool :=
  decide (a.base < b.base + 2 ^ b.k) && decide (b.base < a.base + 2 ^ a.k)

/-- Whether a valid window other than the one at index i covers a serial of w. -/
def Tables.overlapAt (t : Tables) (i : Nat) (w : Window) : Bool :=
  t.windows.toList.zipIdx.any fun p => p.2 != i && p.1.valid && p.1.overlaps w

/-- An owner window record judged for index i (R24). -/
def judgeWindow (t : Tables) (i : Nat) (w : Window) : Except Reason Window :=
  if w.valid = false then .ok .invalid
  else if inRange 8 24 w.k = false ∨ 255 < w.owner then .error .badField
  else if w.base % 2 ^ w.k ≠ 0 then .error .misaligned
  else if t.overlapAt i w then .error .overlap
  else .ok w

/-- A defect record judged (R26). -/
def judgeDefect (action : Nat) : Except Reason Action :=
  match actionOfCode action with
  | none => .error .badField
  | some a => .ok a

/-- The block a step block record would write, if its kind is one of the five. -/
def BlockRecord.block? (r : BlockRecord) : Option Block :=
  (kindOfCode r.kind).map fun kind =>
    { kind, chain := r.chain, target := r.target, rate := r.rate, duration := r.duration, samples := r.samples,
      maxRecords := r.maxRecords, band := r.band, timeExp := r.timeExp, reading := r.reading, leak := r.leak }

/-- A step block record judged for index i (R28, R31). -/
def Controller.judgeBlock (c : Controller) (i : Nat) (r : BlockRecord) : Except Reason Block :=
  match r.block? with
  | none => .error .badField
  | some b =>
    if b.fieldsOk = false then .error .badField
    else if c.blockProtected i then .error .inUse
    else .ok b

/-- Whether a role of a map entry concerns a jacket that is not DISABLED (R33, check 4). -/
def Controller.roleBusy (c : Controller) : Role → Bool
  | .jacket n _ => (c.jacket n).state != .disabled
  | _ => false

/-- Whether two roles may not stand at two addresses: the same station, or the same jacket number (R33, check 5). -/
def Role.clashes : Role → Role → Bool
  | .none, _ => false
  | .jacket n _, .jacket m _ => n == m
  | a, b => a == b

/-- Whether an address other than index i holds a role that clashes (R33, check 5). -/
def Tables.roleElsewhere (t : Tables) (i : Nat) (r : Role) : Bool :=
  t.stations.toList.zipIdx.any fun p => p.2 != i && r.clashes p.1

/-- A station map record judged for index i (R33). -/
def Controller.judgeStation (c : Controller) (i : Nat) (r : StationRecord) : Except Reason Role :=
  match r.role? with
  | none => .error .badField
  | some role =>
    if (i = 0 ∨ i = 63 ∨ i = c.ring.nodeAddress.toNat) ∧ role ≠ .none then .error .badIndex
    else if c.line.state ≠ .stopped then .error .lineState
    else if c.roleBusy (c.roleAt i) = true ∨ c.roleBusy role = true then .error .busy
    else if c.tables.roleElsewhere i role then .error .duplicateRole
    else .ok role

/-! ### Writing -/

/-- Another set of tables. -/
def Controller.setTables (c : Controller) (t : Tables) : Controller := { c with tables := t }

/-- One record judged and written (R36); a record of another table than its index is judged for cannot occur. A station map record that
gives the role MASTER offers the notices that become offerable (R179). -/
def Controller.writeRecord (c : Controller) (i : Nat) : TableRecord → Except Reason Controller
  | .type r =>
    if h : i < 128 then
      (judgeType c.tables r).map fun e => c.setTables { c.tables with types := c.tables.types.set i e h }
    else .error .badIndex
  | .window w =>
    if h : i < 16 then
      (judgeWindow c.tables i w).map fun w => c.setTables { c.tables with windows := c.tables.windows.set i w h }
    else .error .badIndex
  | .defect action =>
    if h : i < 256 then
      (judgeDefect action).map fun a => c.setTables { c.tables with defects := c.tables.defects.set i a h }
    else .error .badIndex
  | .block r =>
    if h : i < 96 then
      (c.judgeBlock i r).map fun b => c.setTables { c.tables with blocks := c.tables.blocks.set i b h }
    else .error .badIndex
  | .station r =>
    if h : i < 64 then
      (c.judgeStation i r).map fun role =>
        let c1 := c.setTables { c.tables with stations := c.tables.stations.set i role h }
        if role = .master then c1.offerNotices else c1
    else .error .badIndex

/-- The answer of a request's owner: the part after it, the reason of a refusal (none when DONE), and the reply's data. -/
structure Answer where
  part : Controller
  reason : Option Reason
  data : List Byte
deriving DecidableEq, Repr

/-- The records of a request written from index i on, until the first is refused (R36, R37); `first` and `count` are the request's. -/
def Controller.writeRecords (first count : Nat) : Controller → Nat → List TableRecord → Answer
  | c, _, [] => { part := c, reason := none, data := field2 first ++ field1 count }
  | c, i, r :: rest =>
    match c.writeRecord i r with
    | .ok c1 => Controller.writeRecords first count c1 (i + 1) rest
    | .error reason => { part := c, reason := some reason, data := field2 i ++ field1 (rest.length + 1) }

/-- A refusal of a TABLE WRITE as a whole (R35). -/
def Controller.writeRefused (c : Controller) (first count : Nat) (reason : Reason) : Answer :=
  { part := c, reason := some reason, data := field2 first ++ field1 count }

/-- A request refused without data. -/
def Controller.refuse (c : Controller) (reason : Reason) : Answer := { part := c, reason := some reason, data := [] }

/-- A request answered DONE that changes nothing. -/
def Controller.answer (c : Controller) (data : List Byte) : Answer := { part := c, reason := none, data }

/-- A TABLE WRITE, from the fields after the request kind (R35 to R37, R181). -/
def Controller.tableWrite (c : Controller) : List Byte → Answer
  | table :: i1 :: i2 :: count :: records =>
    let first := read2 i1 i2
    match tableOfCode table.toNat with
    | none => c.writeRefused first count.toNat .badTable
    | some t =>
      if inRange 1 8 count.toNat = false then c.writeRefused first count.toNat .badField
      else
        match readTableRecords t count.toNat records with
        | none => c.writeRefused first count.toNat .badField
        | some rs => Controller.writeRecords first count.toNat c first rs
  | _ => c.refuse .badField

/-- A TABLE READ, from the fields after the request kind (R38, R181). -/
def Controller.tableRead (c : Controller) : List Byte → Answer
  | [table, i1, i2] =>
    match tableOfCode table.toNat with
    | none => c.refuse .badTable
    | some t =>
      match c.tables.entryBytes t (read2 i1 i2) with
      | none => c.refuse .badIndex
      | some data => c.answer data
  | _ => c.refuse .badField

end Sys2Proof.Machine
end

