-- ==== Sys2Proof/Machine/Management.lean ====
section
/-! DEFINITION. The Management Responder: requests and replies (R181, R183), the commands of a jacket (R117 to R119), RELEASE (R60), the
notice commands (R180), and the views (R184 to R187). -/
namespace Sys2Proof.Machine

/-! ### Commands of a jacket (R117 to R119) -/

/-- JACKET ENABLE (R118). -/
def Controller.enableJacket (c : Controller) (n : JacketNo) : Except Reason Controller :=
  if ¬((c.jacket n).state = .disabled ∨ (c.jacket n).state.isFault = true) then .error .busy
  else if c.nodeWhere? (Role.isJacket n) = none then .error .notMapped
  else
    let c1 := c.updJacket n fun _ => { Jacket.powerOn with state := .idle }
    .ok ((c1.updVerif n fun _ => .powerOn).jacketPass n)

/-- JACKET DISABLE (R119). -/
def Controller.disableJacket (c : Controller) (n : JacketNo) : Except Reason Controller :=
  if (c.jacket n).state = .idle ∨ (c.jacket n).state.isFault = true then
    .ok (c.updJacket n (Jacket.emptied .disabled))
  else .error .busy

/-- JACKET ABORT (R117). -/
def Controller.abortJacket (c : Controller) (n : JacketNo) : Except Reason Controller :=
  match (c.jacket n).state with
  | .running _ => .ok (c.ventInto n .abort)
  | _ => .error .busy

/-! ### RELEASE and the notice commands (R60, R180) -/

/-- RELEASE (R60). -/
def Controller.releaseSerial (c : Controller) (serial : Serial) : Except Reason Controller :=
  match c.recordOf serial with
  | none => .error .notFound
  | some r =>
    if r.state ≠ .manualHeld then .error .busy
    else if r.releasePending then .ok c
    else .ok (c.askRelease r.slot)

/-- SET NOTICE ENABLES (R180). The enables that queued NOTICEs cleared are no longer theirs to give back (R179). -/
def Controller.setEnables (c : Controller) (enables : List Byte) : Except Reason Controller :=
  if enables.all (fun b => b == 0 || b == 1) then
    let c1 := noticeClasses.foldl
      (fun c cls => c.updNotice cls fun s => { s with enable := (enables[cls.index.val]?).getD 0 == 1 }) c
    .ok (c1.setQueue (c1.ring.queue.map fun e => { e with clearedEnable := false }))
  else .error .badField

/-- The class of a code, 1 to 12 (R177). -/
def classOfCode (code : Nat) : Option NoticeClass := if code = 0 then none else noticeClasses[code - 1]?

/-- TEST NOTICE (R180). -/
def Controller.testNotice (c : Controller) (code : Nat) : Except Reason Controller :=
  match classOfCode code with
  | none => .error .badField
  | some cls => .ok ((c.markRaise cls 0 0 true).offerNotice cls)

/-! ### COMMAND requests (R183) -/

/-- The answer of a COMMAND: the command code is its data whatever the outcome (R181, R183). -/
def Controller.commandAnswer (c : Controller) (code : Nat) : Except Reason Controller → Answer
  | .ok c1 => { part := c1, reason := none, data := field1 code }
  | .error reason => { part := c, reason := some reason, data := field1 code }

/-- A command that carries a jacket number (R183). -/
def onJacket (f : JacketNo → Except Reason Controller) (number : Byte) : Except Reason Controller :=
  match jacketOfNumber number.toNat with
  | none => .error .badIndex
  | some n => f n

/-- A COMMAND by its code and the fields after it: a code outside 1 to 12 is refused with UNSUPPORTED, fields of another length than the
code's with BAD_FIELD (R181, R183). -/
def Controller.commandAction (c : Controller) (code : Nat) (fields : List Byte) : Except Reason Controller :=
  match code, fields with
  | 1, [] => c.startLine
  | 2, [] => c.stopLine
  | 3, [] => c.resumeLine
  | 4, [] => c.restartLine
  | 5, [y1, y2, month, day] => c.setDate { year := read2 y1 y2, month := month.toNat, day := day.toNat }
  | 6, item :: value =>
    if value.length = (if item.toNat = 0 then 4 else 2) then c.setConfig item.toNat value else .error .badField
  | 7, [n] => onJacket c.enableJacket n
  | 8, [n] => onJacket c.disableJacket n
  | 9, [n] => onJacket c.abortJacket n
  | 10, [a, b, d, e] => c.releaseSerial (read4 a b d e)
  | 11, [_, _, _, _, _, _, _, _, _, _, _, _] => c.setEnables fields
  | 12, [cls] => c.testNotice cls.toNat
  | _, _ => .error (if inRange 1 12 code then .badField else .unsupported)

/-! ### RECORD VIEW and REGISTER LIST (R184, R185) -/

/-- Kind code of the frame an owed order becomes (R184, item 9). -/
def Order.kind (o : Order) : Nat := (o.body 0).kind

/-- A verdict as a kind and a cause (R184, item 6). -/
def Verdict.bytes (v : Verdict) : List Byte := field1 v.kindCode ++ field1 v.causeCode

/-- The data of a RECORD VIEW (R184). -/
def Record.viewBytes (r : Record) : List Byte :=
  field1 r.slot ++ field4 r.serial ++ field1 r.typeCode ++ field1 r.state.code ++ fieldFlag r.releasePending ++
  fieldOpt [0] (fun h => field1 (HeldCause.code h)) r.heldCause ++
  fieldOpt [0] field1 r.owner ++ fieldOpt [0] fieldFlag r.returnCondemned ++
  field2 r.tare ++ field1 r.lastYear ++ field1 r.lastMonth ++
  fieldOpt [0, 0] field2 r.mass ++ fieldOpt [0] (fun codes => fieldList (codes.flatMap field1)) r.findings ++
  fieldOpt [0] (fun n => field1 n.val) r.jacket ++ field1 r.countedInvalids ++ field1 r.attempts ++
  fieldOpt [0, 0] Verdict.bytes r.verdict ++ fieldDateOpt r.verdictDate ++
  fieldOpt (List.replicate 16 0) LastResult.bytes r.lastResult ++
  fieldList (r.owedOrders.flatMap fun o => field1 o.kind) ++ fieldFlag r.resultOwed ++
  fieldOpt [0, 0] (fun p => field1 p.1 ++ field1 p.2) r.stampProgress ++ r.spec.bytes

/-- RECORD VIEW (R184). -/
def Controller.recordView (c : Controller) (fields : List Byte) : Answer :=
  match readSerial fields with
  | none => c.refuse .badField
  | some serial =>
    match c.recordOf serial with
    | none => c.refuse .notFound
    | some r => c.answer r.viewBytes

/-- The entries of a REGISTER LIST from position p (R185). -/
def Controller.listed (c : Controller) (p : Nat) : List Record := (c.records.drop p).take 8

/-- The data of a REGISTER LIST (R185). -/
def Controller.listBytes (c : Controller) (p : Nat) : List Byte :=
  field1 c.line.state.code ++ field1 c.line.holdFrom.code ++ fieldFlag c.line.causeLineHold ++
  fieldFlag c.line.causeRing ++ fieldDateOpt c.line.date ++ field1 c.records.length ++ field1 p ++
  field1 (c.listed p).length ++ (c.listed p).flatMap fun r => field4 r.serial ++ field1 r.state.code

/-- REGISTER LIST (R185). -/
def Controller.registerList (c : Controller) : List Byte → Answer
  | [p] => if 63 < p.toNat then c.refuse .badIndex else c.answer (c.listBytes p.toNat)
  | _ => c.refuse .badField

/-! ### Jacket views (R186, R187) -/

/-- Records remaining in the block: in RUNNING with a ZERO, HOLD or VENT block (R186). -/
def Controller.recordsRemaining (c : Controller) (n : JacketNo) : Nat :=
  match (c.jacket n).state with
  | .running kind => if kind.settles then (c.currentBlock n).maxCount - (c.jacket n).recordsCompleted else 0
  | _ => 0

/-- The view of jacket n as it stands (R186). -/
def Controller.viewOf (c : Controller) (n : JacketNo) : JacketView :=
  let j := c.jacket n
  let v := c.verif n
  { jacket := n, state := j.state, currentBlock := j.currentBlock, remaining := c.recordsRemaining n,
    samples := j.acc.samples, lastMeans := j.lastMeans, awaited := j.awaited, loaded := j.loaded,
    sampleAge := j.sampleAge, zero := j.zero, hold := j.hold, vent := j.vent, earlyEnd := j.earlyEnd,
    verified := v.verified, verifiedDate := v.date, count := v.count }

/-- A pair of readings as its two values. -/
def ReadingPair.bytes (p : ReadingPair) : List Byte := field2 p.first ++ field2 p.second

/-- The data of a jacket view (R186). -/
def JacketView.bytes (v : JacketView) : List Byte :=
  field1 v.jacket.val ++ field1 v.state.code ++ field1 v.state.qualifier ++ field1 v.currentBlock ++
  field1 v.remaining ++ field1 v.samples ++
  fieldOpt (List.replicate 6 0) (fun m => field2 (Means.level m) ++ field2 m.pressure ++ field2 m.temperature)
    v.lastMeans ++
  fieldOpt (List.replicate 4 0) field4 v.awaited ++ fieldOpt (List.replicate 4 0) field4 v.loaded ++
  field2 v.sampleAge ++ fieldOpt (List.replicate 4 0) ReadingPair.bytes v.zero ++
  fieldOpt (List.replicate 4 0) ReadingPair.bytes v.hold ++ fieldOpt (List.replicate 4 0) ReadingPair.bytes v.vent ++
  fieldOpt [0] (fun e => field1 (EarlyCause.code e)) v.earlyEnd ++ fieldFlag v.verified ++
  fieldDateOpt v.verifiedDate ++ field1 v.count

/-- Another frozen view buffer. -/
def Controller.setFrozen (c : Controller) (f : Option FrozenViews) : Controller :=
  { c with responder := { c.responder with frozen := f } }

/-- The views of all eight jackets as they stand (R187). -/
def Controller.captureViews (c : Controller) : Vector JacketView 8 := Vector.ofFn c.viewOf

/-- JACKET VIEW in mode LIVE (R186). -/
def Controller.liveView (c : Controller) (number : Byte) : Answer :=
  match jacketOfNumber number.toNat with
  | none => c.refuse .badIndex
  | some n => c.answer (c.viewOf n).bytes

/-- JACKET VIEW in mode FROZEN-FIRST (R187). -/
def Controller.frozenFirst (c : Controller) (number : Byte) : Answer :=
  match jacketOfNumber number.toNat with
  | none => c.refuse .badIndex
  | some n =>
    (c.setFrozen (some { views := c.captureViews, pointer := n })).answer (c.captureViews.get n).bytes

/-- JACKET VIEW in mode FROZEN-NEXT (R187). -/
def Controller.frozenNext (c : Controller) : Answer :=
  match c.responder.frozen with
  | none => c.refuse .noSnapshot
  | some f =>
    (c.setFrozen (some { f with pointer := f.pointer + 1 })).answer (f.views.get (f.pointer + 1)).bytes

/-- JACKET VIEW by its fields: mode 0 LIVE, 1 FROZEN-FIRST, 2 FROZEN-NEXT (R181, R182). -/
def Controller.jacketView (c : Controller) : List Byte → Answer
  | [mode, number] =>
    if mode = 0 then c.liveView number else if mode = 1 then c.frozenFirst number else c.refuse .badField
  | [mode] => if mode = 2 then c.frozenNext else c.refuse .badField
  | _ => c.refuse .badField

/-! ### The request (R181) -/

/-- A COMMAND request, from the fields after the request kind (R181, R183). -/
def Controller.command (c : Controller) : List Byte → Answer
  | [] => c.refuse .badField
  | code :: fields => c.commandAnswer code.toNat (c.commandAction code.toNat fields)

/-- The answer to a request's payload (R181). -/
def Controller.judgeRequest (c : Controller) : List Byte → Answer
  | [] => c.refuse .badField
  | kind :: fields =>
    match kind.toNat with
    | 1 => c.tableWrite fields
    | 2 => c.tableRead fields
    | 3 => c.command fields
    | 4 => c.jacketView fields
    | 5 => c.recordView fields
    | 6 => c.registerList fields
    | _ => c.refuse .unsupported

/-- Whether a request was a SET NOTICE ENABLES, after whose reply the classes are offered (R180). -/
def isSetEnables (payload : List Byte) (a : Answer) : Bool :=
  a.reason.isNone && decide (payload.take 2 = [3, 11])

/-- The reply of an answered request, held in the reply buffer and offered (R181). -/
def Controller.reply (source : Nat) (payload : List Byte) (a : Answer) : Controller :=
  let r : Reply := { destination := source, kind := (payload.head?.map BitVec.toNat).getD 0, reason := a.reason, data := a.data }
  (a.part.setBuffer (.holding r)).offerReply

/-- A taken request acted on and answered (R181). -/
def Controller.request (c : Controller) (source : Nat) (payload : List Byte) : Controller :=
  let a := c.judgeRequest payload
  let c1 := Controller.reply source payload a
  if isSetEnables payload a then c1.offerNotices else c1

end Sys2Proof.Machine
end

