-- ==== Sys2Proof/Machine/RingPort.lean ====
section
/-! DEFINITION. The Ring Port and the Frame Classifier: reception (R1 to R5, R18), the transmitter (R9, R10), the receiver's lock and the
ring status (R13, R14), and the time base. -/
namespace Sys2Proof.Machine

/-! ### Reception -/

/-- Another forward buffer. -/
def Controller.setForward (c : Controller) (l : List (List Byte)) : Controller :=
  { c with ring := { c.ring with forward := l } }

/-- Whether the forward buffer has room (R2). -/
def Controller.forwardRoom (c : Controller) : Bool := decide (c.ring.forward.length < Config.forwardCapacity)

/-- A frame placed at the tail of the forward buffer (R2). -/
def Controller.placeForward (c : Controller) (bytes : List Byte) : Controller :=
  c.setForward (c.ring.forward ++ [bytes])

/-- A report of the wrong length (R5). -/
def Controller.malformed (c : Controller) (role : Role) (serial : Serial) : Controller := c.stray role serial .malformed

/-- A report read from a jacket's station (R5). -/
def Controller.jacketReport (c : Controller) (n : JacketNo) (kind : Nat) (payload : List Byte) : Controller :=
  match kind with
  | 4 =>
    match readSerial payload with
    | some serial => c.takeArrival n serial
    | none => c.malformed (strayJacket n) (leadingSerial payload)
  | 5 =>
    match readSample payload with
    | some s => c.takeSample n s
    | none => c.malformed (strayJacket n) 0
  | 6 =>
    match readSerial payload with
    | some serial => c.takeClear n serial
    | none => c.malformed (strayJacket n) (leadingSerial payload)
  | _ => c

/-- The Frame Classifier (R5): a report of one of the eight kinds, read when its source has the role of its row, checked for length and
handed on. -/
def Controller.classify (c : Controller) (source kind : Nat) (payload : List Byte) : Controller :=
  match c.roleAt source, kind with
  | .entry, 1 =>
    match readEntryTag payload with
    | some tag => c.takeTag tag
    | none => c.malformed .entry (leadingSerial payload)
  | .scale, 2 =>
    match readMass payload with
    | some (serial, mass) => c.takeMass serial mass
    | none => c.malformed .scale (leadingSerial payload)
  | .visual, 3 =>
    match readFindings payload with
    | some (serial, codes) => c.takeFindings serial codes
    | none => c.malformed .visual (leadingSerial payload)
  | .stamp, 7 =>
    match readStampReport payload with
    | some (serial, outcome, struck) => c.takeStamp serial outcome struck
    | none => c.malformed .stamp (leadingSerial payload)
  | .scrap, 8 =>
    match readScrapReport payload with
    | some (serial, outcome) => c.takeScrap serial outcome
    | none => c.malformed .scrap (leadingSerial payload)
  | .jacket n _, k => c.jacketReport n k payload
  | _, _ => c

/-- The kind code of MANAGE (01, section 1.1). -/
def manageKind : Nat := 48

/-- Whether a frame is a management request for the part (R4). -/
def Controller.isRequest (c : Controller) (f : Frame) : Bool :=
  f.header.destination.toNat == c.ring.nodeAddress.toNat && f.kind.toNat == manageKind

/-- A frame that has passed the checks and is not the part's own: placed in the forward buffer, or discarded if it is full (R2); taken
if it is a request and the reply buffer is empty (R4); read if it is a report (R5). -/
def Controller.passOn (c : Controller) (f : Frame) : Controller :=
  if c.forwardRoom = false then c
  else if c.isRequest f then
    if c.responder.buffer = .empty then
      ((c.placeForward f.markTaken.wire).setBuffer .taken).request f.header.source.toNat f.payload
    else c.placeForward f.wire
  else (c.placeForward f.wire).classify f.header.source.toNat f.kind.toNat f.payload

/-- A frame that has passed the checks (R2): stripped and matched if its source is the part's own address. -/
def Controller.accept (c : Controller) (f : Frame) : Controller :=
  if f.header.source.toNat = c.ring.nodeAddress.toNat then
    c.matchReturn f.header.sequence.toNat (takenMark f.header || f.header.destination == 63)
  else c.passOn f

/-- Bypass: every frame received whole is passed on as it is, if there is room (R18). -/
def Controller.bypassFrame (c : Controller) (bytes : List Byte) : Controller :=
  if c.forwardRoom then c.placeForward bytes else c

/-- A received frame, its CRC good. A payload over 200 bytes fails the checks of R1. -/
def Controller.receiveFrame (c : Controller) (f : Frame) : Controller :=
  if c.bypass then c.bypassFrame f.wire
  else if Config.maxPayload < f.payload.length then c
  else c.accept f

/-- The bytes between the symbols of a received frame (R1, R2, R18). -/
def Controller.receiveBytes (c : Controller) (bytes : List Byte) : Controller :=
  if c.bypass then c.bypassFrame bytes
  else
    match checkFrame bytes with
    | none => c
    | some f => c.accept f

/-- A MANAGE frame with this payload. -/
def manageFrame (h : Header) (payload : List Byte) : Frame :=
  { header := h, kind := BitVec.ofNat 8 manageKind, payload }

/-! ### The transmitter (R9, R10) -/

/-- The head of the insertion queue: the oldest URGENT frame, or the oldest NORMAL one (R6). -/
def queueHead (q : List QueueEntry) : Option QueueEntry :=
  (q.find? fun e => e.body.urgent).or q.head?

/-- The queue without its head. -/
def queueRest (q : List QueueEntry) : List QueueEntry :=
  if q.any (fun e => e.body.urgent) then q.eraseP fun e => e.body.urgent else q.tail

/-- The own frame that is a candidate, if one is (R9). -/
def Controller.ownCandidate (c : Controller) : Option QueueEntry :=
  if c.ring.status = .up ∧ c.ring.outstanding.length < Config.outstandingCapacity ∧ c.bypass = false then
    queueHead c.ring.queue
  else none

/-- The frame an own entry is sent as (R10). -/
def Controller.ownFrame (c : Controller) (e : QueueEntry) : Frame :=
  { header := { destination := BitVec.ofNat 8 e.destination, source := c.ring.nodeAddress.setWidth 8,
                sequence := BitVec.ofNat 8 c.ring.sequence, trailer := 0 }
    kind := BitVec.ofNat 8 e.body.kind, payload := e.body.payload }

/-- The outstanding entry of an own frame that starts (R10). -/
def Controller.outEntry (c : Controller) (e : QueueEntry) : OutEntry :=
  { sequence := c.ring.sequence, start := c.ring.clock, body := e.body, destination := e.destination, owner := e.owner,
    stands := true }

/-- An own frame starts (R10), and its entry frees (R8). -/
def Controller.startOwn (c : Controller) (e : QueueEntry) : Controller :=
  Controller.afterFreeing
    { c with ring := { c.ring with
        queue := queueRest c.ring.queue, outstanding := c.ring.outstanding ++ [c.outEntry e],
        transmitter := .own (c.ownFrame e).wire, streak := 0, sequence := (c.ring.sequence + 1) % 256 } }

/-- A forwarded frame starts, with this streak count (R9). -/
def Controller.startForwarded (c : Controller) (streak : Nat) : Controller :=
  { c with ring := { c.ring with transmitter := .forwarding, streak } }

/-- The free transmitter starts the frame it chooses (R9; log entry 8). -/
def Controller.transmit (c : Controller) : Controller :=
  if c.ring.transmitter ≠ .free then c
  else
    match c.ring.forward, c.ownCandidate with
    | [], none => c
    | [], some e => c.startOwn e
    | _ :: _, none => c.startForwarded 0
    | _ :: _, some e =>
      if Config.streakLimit ≤ c.ring.streak then c.startOwn e else c.startForwarded (c.ring.streak + 1)

/-- The frame in transmission completes (R3, R9). -/
def Controller.completeTransmission (c : Controller) : Controller :=
  match c.ring.transmitter with
  | .free => c
  | .forwarding => { c with ring := { c.ring with forward := c.ring.forward.tail, transmitter := .free } }
  | .own _ => { c with ring := { c.ring with transmitter := .free } }

/-! ### Lock and time (R13, R109; log entry 3) -/

/-- The receiver loses or regains lock; a change starts its count afresh (R13). -/
def Controller.setLock (c : Controller) (locked : Bool) : Controller :=
  if c.ring.locked = locked then c else { c with ring := { c.ring with locked, lockCount := 0 } }

/-- A loss of lock that has lasted 10 ms while the ring is UP (R13). -/
def Controller.lossReached (c : Controller) : Bool :=
  c.ring.status == .up && !c.ring.locked && decide (Config.lossTime ≤ c.ring.lockCount)

/-- 100 ms of lock while the ring is DOWN (R13). -/
def Controller.lockReached (c : Controller) : Bool :=
  c.ring.status == .down && c.ring.locked && decide (Config.lockTime ≤ c.ring.lockCount)

/-- A jacket's timers after one more millisecond (R92, R109). -/
def Jacket.tick (up : Bool) (j : Jacket) : Jacket :=
  if j.state.pressing then
    { j with elapsed := j.elapsed + 1, sampleAge := if up then min 65535 (j.sampleAge + 1) else j.sampleAge }
  else j

/-- One millisecond of the part's time base. -/
def Controller.tick (c : Controller) : Controller :=
  { c with
    ring := { c.ring with clock := c.ring.clock + 1, lockCount := c.ring.lockCount + 1 }
    jackets := c.jackets.map (Jacket.tick (c.ring.status == .up)) }

/-! ### Expiries of a jacket (R106, R108, R109, R112) -/

/-- Whether a jacket is RUNNING. -/
def JacketState.isRunning : JacketState → Bool
  | .running _ => true
  | _ => false

/-- The time limit of jacket n's block has been reached (R108). -/
def Controller.timeLimitReached (c : Controller) (n : JacketNo) : Bool :=
  (c.jacket n).state.isRunning && decide (2 ^ (c.currentBlock n).timeExp * 1000 ≤ (c.jacket n).elapsed)

/-- The dwell of jacket n has ended (R106). -/
def Controller.dwellReached (c : Controller) (n : JacketNo) : Bool :=
  (c.jacket n).state == .running .dwell && decide ((c.currentBlock n).duration * 100 ≤ (c.jacket n).elapsed)

/-- The sample age of jacket n has reached its limit (R109). -/
def Controller.silent (c : Controller) (n : JacketNo) : Bool :=
  (c.jacket n).state.pressing && decide (c.line.items.sampleAgeLimit ≤ (c.jacket n).sampleAge)

/-- The vent limit of jacket n has been reached (R112). -/
def Controller.ventLimitReached (c : Controller) (n : JacketNo) : Bool :=
  match (c.jacket n).state with
  | .recovering _ => decide (Config.ventLimit ≤ (c.jacket n).elapsed)
  | _ => false

end Sys2Proof.Machine
end

