-- ==== Sys2Proof/Machine/Frames.lean ====
section
/-! DEFINITION. The meanings of the commands of frames that are not read as reports or carry no command: discarded, forwarded, returning and untaken
frames. -/
namespace Sys2Proof.Machine

/-- FRAME_DISCARDED (R1, R2): these bytes are received. They leave no trace when they fail the checks or the forward buffer is full; bytes
of another case are handled as that case (log entry 5). -/
def execFrameDiscarded (bytes : List Byte) (s : State) : Host.Outcome State Fault Refusal :=
  .next (s.withPart (s.part.receiveBytes bytes))

/-- FORWARDED_FRAME (R2, R18): these bytes are received; a frame the part does not read is placed in the forward buffer (log entry 5). -/
def execForwardedFrame (bytes : List Byte) (s : State) : Host.Outcome State Fault Refusal :=
  .next (s.withPart (s.part.receiveBytes bytes))

/-- RETURN_MATCHING (R11): a frame with the part's own address as source is received, stripped and matched. -/
def execReturnMatching (destination kind sequence : Byte) (payload : List Byte)
    (trailer : Byte) (s : State) : Host.Outcome State Fault Refusal :=
  .next (s.withPart (s.part.receiveFrame
    { header := { destination, source := s.part.ring.nodeAddress.setWidth 8, sequence, trailer }, kind, payload }))

/-- MANAGE_NOT_TAKEN (R4): a MANAGE frame is received; it is only forwarded while the reply buffer is occupied (log entry 5). -/
def execManageNotTaken (h : Header) (payload : List Byte) (s : State) : Host.Outcome State Fault Refusal :=
  .next (s.withPart (s.part.receiveFrame (manageFrame h payload)))

/-- MANAGE_UNSUPPORTED (R181): a MANAGE frame with no payload, or with a request kind outside 1 to 6, is received. -/
def execManageUnsupported (h : Header) (payload : List Byte) (s : State) : Host.Outcome State Fault Refusal :=
  .next (s.withPart (s.part.receiveFrame (manageFrame h payload)))

end Sys2Proof.Machine
end

