-- ==== Sys2Proof/Machine/Pins.lean ====
section
/-! DEFINITION. The meanings of the commands of the pins and the receiver: RESET, HOLD, signal lock and ring status. -/
namespace Sys2Proof.Machine

/-- The part after RESET is released with these straps and this HOLD level (R18, R169). -/
def poweredOn (straps : NodeAddress) (holdAsserted : Bool) : Controller :=
  let c := Controller.powerOn straps
  if holdAsserted = true ∧ c.bypass = false then c.addCause .lineHold else c

/-- POWER_ON (R18, R169): every block takes its power-on state, the straps are latched, and a HOLD level that is present is taken as an
assertion, unless the part is in bypass. -/
def execPowerOn (straps : NodeAddress) (holdAsserted : Bool) (s : State) : Host.Outcome State Fault Refusal :=
  .next (s.withPart (poweredOn straps holdAsserted))

/-- HOLD_ASSERTED (R172): the cause LINE_HOLD is added; in bypass HOLD has no effect (R169). -/
def execHoldAsserted (s : State) : Host.Outcome State Fault Refusal :=
  .next (s.withPart (if s.part.bypass then s.part else s.part.addCause .lineHold))

/-- HOLD_RELEASED (R173): the cause LINE_HOLD is removed, and the line state does not change. -/
def execHoldReleased (s : State) : Host.Outcome State Fault Refusal :=
  .next (s.withPart (if s.part.bypass then s.part else s.part.setCause .lineHold false))

/-- RX_LOCK_LOST (R13): the loss count begins. A frame cut off has no other effect (R1; log entry 7). -/
def execRxLockLost (s : State) : Host.Outcome State Fault Refusal :=
  .next (s.withPart (s.part.setLock false))

/-- RX_LOCK_REGAINED (R13): the lock count begins. -/
def execRxLockRegained (s : State) : Host.Outcome State Fault Refusal :=
  .next (s.withPart (s.part.setLock true))

/-- RING_DOWN (R13, R14, R172): a loss of lock that has lasted 10 ms takes the ring DOWN. Before that it does not (log entry 4). -/
def execRingDown (s : State) : Host.Outcome State Fault Refusal :=
  .next (s.withPart (if s.part.lossReached then s.part.ringGoesDown else s.part))

/-- RING_UP (R13, R173): 100 ms of lock takes the ring UP. Before that it does not (log entry 4). -/
def execRingUp (s : State) : Host.Outcome State Fault Refusal :=
  .next (s.withPart (if s.part.lockReached then s.part.ringGoesUp else s.part))

end Sys2Proof.Machine
end

