-- ==== Sys2Proof/Machine/Requests.lean ====
section
/-! DEFINITION. The meanings of the management requests. Each is a MANAGE frame: Management.lean and TableStore.lean give what the request does. -/
namespace Sys2Proof.Machine

/-- TABLE_WRITE (R36): a MANAGE frame whose payload begins with 1 is received (R4), acted on and answered (R181). -/
def execTableWrite (h : Header) (fields : List Byte) (s : State) : Host.Outcome State Fault Refusal :=
  .next (s.withPart (s.part.receiveFrame (manageFrame h (1 :: fields))))

/-- TABLE_READ (R38): a MANAGE frame whose payload begins with 2 is received (R4), acted on and answered (R181). -/
def execTableRead (h : Header) (fields : List Byte) (s : State) : Host.Outcome State Fault Refusal :=
  .next (s.withPart (s.part.receiveFrame (manageFrame h (2 :: fields))))

/-- START (R170): a MANAGE frame whose payload begins with 3, 1 is received (R4), acted on and answered (R181). -/
def execStart (h : Header) (fields : List Byte) (s : State) : Host.Outcome State Fault Refusal :=
  .next (s.withPart (s.part.receiveFrame (manageFrame h (3 :: 1 :: fields))))

/-- STOP (R171): a MANAGE frame whose payload begins with 3, 2 is received (R4), acted on and answered (R181). -/
def execStop (h : Header) (fields : List Byte) (s : State) : Host.Outcome State Fault Refusal :=
  .next (s.withPart (s.part.receiveFrame (manageFrame h (3 :: 2 :: fields))))

/-- RESUME (R173): a MANAGE frame whose payload begins with 3, 3 is received (R4), acted on and answered (R181). -/
def execResume (h : Header) (fields : List Byte) (s : State) : Host.Outcome State Fault Refusal :=
  .next (s.withPart (s.part.receiveFrame (manageFrame h (3 :: 3 :: fields))))

/-- RESTART (R174): a MANAGE frame whose payload begins with 3, 4 is received (R4), acted on and answered (R181). -/
def execRestart (h : Header) (fields : List Byte) (s : State) : Host.Outcome State Fault Refusal :=
  .next (s.withPart (s.part.receiveFrame (manageFrame h (3 :: 4 :: fields))))

/-- SET_DATE (R175): a MANAGE frame whose payload begins with 3, 5 is received (R4), acted on and answered (R181). -/
def execSetDate (h : Header) (fields : List Byte) (s : State) : Host.Outcome State Fault Refusal :=
  .next (s.withPart (s.part.receiveFrame (manageFrame h (3 :: 5 :: fields))))

/-- SET_CONFIG (R176): a MANAGE frame whose payload begins with 3, 6 is received (R4), acted on and answered (R181). -/
def execSetConfig (h : Header) (fields : List Byte) (s : State) : Host.Outcome State Fault Refusal :=
  .next (s.withPart (s.part.receiveFrame (manageFrame h (3 :: 6 :: fields))))

/-- JACKET_ENABLE (R118): a MANAGE frame whose payload begins with 3, 7 is received (R4), acted on and answered (R181). -/
def execJacketEnable (h : Header) (fields : List Byte) (s : State) : Host.Outcome State Fault Refusal :=
  .next (s.withPart (s.part.receiveFrame (manageFrame h (3 :: 7 :: fields))))

/-- JACKET_DISABLE (R119): a MANAGE frame whose payload begins with 3, 8 is received (R4), acted on and answered (R181). -/
def execJacketDisable (h : Header) (fields : List Byte) (s : State) : Host.Outcome State Fault Refusal :=
  .next (s.withPart (s.part.receiveFrame (manageFrame h (3 :: 8 :: fields))))

/-- JACKET_ABORT (R117): a MANAGE frame whose payload begins with 3, 9 is received (R4), acted on and answered (R181). -/
def execJacketAbort (h : Header) (fields : List Byte) (s : State) : Host.Outcome State Fault Refusal :=
  .next (s.withPart (s.part.receiveFrame (manageFrame h (3 :: 9 :: fields))))

/-- RELEASE (R60): a MANAGE frame whose payload begins with 3, 10 is received (R4), acted on and answered (R181). -/
def execRelease (h : Header) (fields : List Byte) (s : State) : Host.Outcome State Fault Refusal :=
  .next (s.withPart (s.part.receiveFrame (manageFrame h (3 :: 10 :: fields))))

/-- SET_NOTICE_ENABLES (R180): a MANAGE frame whose payload begins with 3, 11 is received (R4), acted on and answered (R181). -/
def execSetNoticeEnables (h : Header) (fields : List Byte) (s : State) : Host.Outcome State Fault Refusal :=
  .next (s.withPart (s.part.receiveFrame (manageFrame h (3 :: 11 :: fields))))

/-- TEST_NOTICE (R180): a MANAGE frame whose payload begins with 3, 12 is received (R4), acted on and answered (R181). -/
def execTestNotice (h : Header) (fields : List Byte) (s : State) : Host.Outcome State Fault Refusal :=
  .next (s.withPart (s.part.receiveFrame (manageFrame h (3 :: 12 :: fields))))

/-- JACKET_VIEW (R186): a MANAGE frame whose payload begins with 4 is received (R4), acted on and answered (R181). -/
def execJacketView (h : Header) (fields : List Byte) (s : State) : Host.Outcome State Fault Refusal :=
  .next (s.withPart (s.part.receiveFrame (manageFrame h (4 :: fields))))

/-- FROZEN_FIRST (R187): a MANAGE frame whose payload begins with 4, 1 is received (R4), acted on and answered (R181). -/
def execFrozenFirst (h : Header) (fields : List Byte) (s : State) : Host.Outcome State Fault Refusal :=
  .next (s.withPart (s.part.receiveFrame (manageFrame h (4 :: 1 :: fields))))

/-- FROZEN_NEXT (R187): a MANAGE frame whose payload begins with 4, 2 is received (R4), acted on and answered (R181). -/
def execFrozenNext (h : Header) (fields : List Byte) (s : State) : Host.Outcome State Fault Refusal :=
  .next (s.withPart (s.part.receiveFrame (manageFrame h (4 :: 2 :: fields))))

/-- RECORD_VIEW (R184): a MANAGE frame whose payload begins with 5 is received (R4), acted on and answered (R181). -/
def execRecordView (h : Header) (fields : List Byte) (s : State) : Host.Outcome State Fault Refusal :=
  .next (s.withPart (s.part.receiveFrame (manageFrame h (5 :: fields))))

/-- REGISTER_LIST (R185): a MANAGE frame whose payload begins with 6 is received (R4), acted on and answered (R181). -/
def execRegisterList (h : Header) (fields : List Byte) (s : State) : Host.Outcome State Fault Refusal :=
  .next (s.withPart (s.part.receiveFrame (manageFrame h (6 :: fields))))

/-- COMMAND_UNSUPPORTED (R183): a MANAGE frame whose payload begins with 3 is received (R4), acted on and answered (R181). -/
def execCommandUnsupported (h : Header) (fields : List Byte) (s : State) : Host.Outcome State Fault Refusal :=
  .next (s.withPart (s.part.receiveFrame (manageFrame h (3 :: fields))))

end Sys2Proof.Machine
end

