-- ==== Sys2Proof/Machine/Stations.lean ====
section
/-! DEFINITION. The meanings of the eight station reports. -/
namespace Sys2Proof.Machine

/-- ENTRY_TAG (R44): a frame of kind 1 is received; read from its proper role (R5), the register screens the tag. -/
def execEntryTag (h : Header) (payload : List Byte) (s : State) : Host.Outcome State Fault Refusal :=
  .next (s.withPart (s.part.receiveFrame { header := h, kind := 1, payload }))

/-- MASS_READING (R63): a frame of kind 2 is received; read from its proper role (R5), the register judges the mass. -/
def execMassReading (h : Header) (payload : List Byte) (s : State) : Host.Outcome State Fault Refusal :=
  .next (s.withPart (s.part.receiveFrame { header := h, kind := 2, payload }))

/-- VISUAL_FINDINGS (R69): a frame of kind 3 is received; read from its proper role (R5), the register resolves the findings. -/
def execVisualFindings (h : Header) (payload : List Byte) (s : State) : Host.Outcome State Fault Refusal :=
  .next (s.withPart (s.part.receiveFrame { header := h, kind := 3, payload }))

/-- STAMP_REPORT (R161): a frame of kind 7 is received; read from its proper role (R5), the Order Unit completes the stamp or holds the record. -/
def execStampReport (h : Header) (payload : List Byte) (s : State) : Host.Outcome State Fault Refusal :=
  .next (s.withPart (s.part.receiveFrame { header := h, kind := 7, payload }))

/-- SCRAP_REPORT (R164): a frame of kind 8 is received; read from its proper role (R5), the Order Unit releases or holds the record. -/
def execScrapReport (h : Header) (payload : List Byte) (s : State) : Host.Outcome State Fault Refusal :=
  .next (s.withPart (s.part.receiveFrame { header := h, kind := 8, payload }))

/-- JACKET_ARRIVAL (R85): a frame of kind 4 is received; read from its proper role (R5), the jacket judges the serial. -/
def execJacketArrival (h : Header) (payload : List Byte) (s : State) : Host.Outcome State Fault Refusal :=
  .next (s.withPart (s.part.receiveFrame { header := h, kind := 4, payload }))

/-- JACKET_SAMPLE (R99): a frame of kind 5 is received; read from its proper role (R5), the jacket takes the sample. -/
def execJacketSample (h : Header) (payload : List Byte) (s : State) : Host.Outcome State Fault Refusal :=
  .next (s.withPart (s.part.receiveFrame { header := h, kind := 5, payload }))

/-- JACKET_CLEAR (R114): a frame of kind 6 is received; read from its proper role (R5), the jacket ends its unload. -/
def execJacketClear (h : Header) (payload : List Byte) (s : State) : Host.Outcome State Fault Refusal :=
  .next (s.withPart (s.part.receiveFrame { header := h, kind := 6, payload }))

end Sys2Proof.Machine
end

