-- ==== Sys2Proof/Machine/Timers.lean ====
section
/-! DEFINITION. The meanings of the transmitter's and the timers' commands. -/
namespace Sys2Proof.Machine

/-- TRANSMITTER_START (R9, R10): the free transmitter chooses a frame and starts it. -/
def execTransmitterStart (s : State) : Host.Outcome State Fault Refusal :=
  .next (s.withPart (s.part.transmit))

/-- TRANSMISSION_COMPLETE (R3, R9): the frame in transmission completes. -/
def execTransmissionComplete (s : State) : Host.Outcome State Fault Refusal :=
  .next (s.withPart (s.part.completeTransmission))

/-- RETURN_TIMEOUT (R12): every entry at the head of the outstanding list whose age has reached the return time is removed in turn. -/
def execReturnTimeout (s : State) : Host.Outcome State Fault Refusal :=
  .next (s.withPart (s.part.expire))

/-- BLOCK_TIME_LIMIT (R108): the time limit of a RUNNING jacket's block expires. Before it is reached nothing happens (log entry 4). -/
def execBlockTimeLimit (n : JacketNo) (s : State) : Host.Outcome State Fault Refusal :=
  .next (s.withPart (if s.part.timeLimitReached n then s.part.earlyEnd n .timeout else s.part))

/-- DWELL_END (R106): the dwell of a RUNNING jacket ends. Before it is reached nothing happens (log entry 4). -/
def execDwellEnd (n : JacketNo) (s : State) : Host.Outcome State Fault Refusal :=
  .next (s.withPart (if s.part.dwellReached n then s.part.completeBlock n else s.part))

/-- SAMPLE_AGE_LIMIT (R109): a jacket in RUNNING or RECOVERING has fallen silent. Before that nothing happens (log entry 4). -/
def execSampleAgeLimit (n : JacketNo) (s : State) : Host.Outcome State Fault Refusal :=
  .next (s.withPart (if s.part.silent n then s.part.faultJacket n .silent else s.part))

/-- VENT_LIMIT (R112): a RECOVERING jacket has found no low sample in 120 s. Before that nothing happens (log entry 4). -/
def execVentLimit (n : JacketNo) (s : State) : Host.Outcome State Fault Refusal :=
  .next (s.withPart (if s.part.ventLimitReached n then s.part.faultJacket n .ventTimeout else s.part))

end Sys2Proof.Machine
end

