-- ==== Sys2Proof/Machine/Dispatch.lean ====
section
/-! DEFINITION. The effect of each command: one arm, one meaning. -/
namespace Sys2Proof.Machine

def exec (i : Instr) (s : State) : Host.Outcome State Fault Refusal :=
  match i with
  | .powerOn straps hold => Sys2Proof.Machine.execPowerOn straps hold s
  | .holdAsserted => Sys2Proof.Machine.execHoldAsserted s
  | .holdReleased => Sys2Proof.Machine.execHoldReleased s
  | .rxLockLost => Sys2Proof.Machine.execRxLockLost s
  | .rxLockRegained => Sys2Proof.Machine.execRxLockRegained s
  | .ringDown => Sys2Proof.Machine.execRingDown s
  | .ringUp => Sys2Proof.Machine.execRingUp s
  | .frameDiscarded bytes => Sys2Proof.Machine.execFrameDiscarded bytes s
  | .forwardedFrame bytes => Sys2Proof.Machine.execForwardedFrame bytes s
  | .returnMatching destination kind sequence payload trailer => Sys2Proof.Machine.execReturnMatching destination kind sequence payload trailer s
  | .manageNotTaken h payload => Sys2Proof.Machine.execManageNotTaken h payload s
  | .manageUnsupported h payload => Sys2Proof.Machine.execManageUnsupported h payload s
  | .entryTag h payload => Sys2Proof.Machine.execEntryTag h payload s
  | .massReading h payload => Sys2Proof.Machine.execMassReading h payload s
  | .visualFindings h payload => Sys2Proof.Machine.execVisualFindings h payload s
  | .stampReport h payload => Sys2Proof.Machine.execStampReport h payload s
  | .scrapReport h payload => Sys2Proof.Machine.execScrapReport h payload s
  | .jacketArrival h payload => Sys2Proof.Machine.execJacketArrival h payload s
  | .jacketSample h payload => Sys2Proof.Machine.execJacketSample h payload s
  | .jacketClear h payload => Sys2Proof.Machine.execJacketClear h payload s
  | .transmitterStart => Sys2Proof.Machine.execTransmitterStart s
  | .transmissionComplete => Sys2Proof.Machine.execTransmissionComplete s
  | .returnTimeout => Sys2Proof.Machine.execReturnTimeout s
  | .blockTimeLimit n => Sys2Proof.Machine.execBlockTimeLimit n s
  | .dwellEnd n => Sys2Proof.Machine.execDwellEnd n s
  | .sampleAgeLimit n => Sys2Proof.Machine.execSampleAgeLimit n s
  | .ventLimit n => Sys2Proof.Machine.execVentLimit n s
  | .tableWrite h fields => Sys2Proof.Machine.execTableWrite h fields s
  | .tableRead h fields => Sys2Proof.Machine.execTableRead h fields s
  | .start h fields => Sys2Proof.Machine.execStart h fields s
  | .stop h fields => Sys2Proof.Machine.execStop h fields s
  | .resume h fields => Sys2Proof.Machine.execResume h fields s
  | .restart h fields => Sys2Proof.Machine.execRestart h fields s
  | .setDate h fields => Sys2Proof.Machine.execSetDate h fields s
  | .setConfig h fields => Sys2Proof.Machine.execSetConfig h fields s
  | .jacketEnable h fields => Sys2Proof.Machine.execJacketEnable h fields s
  | .jacketDisable h fields => Sys2Proof.Machine.execJacketDisable h fields s
  | .jacketAbort h fields => Sys2Proof.Machine.execJacketAbort h fields s
  | .release h fields => Sys2Proof.Machine.execRelease h fields s
  | .setNoticeEnables h fields => Sys2Proof.Machine.execSetNoticeEnables h fields s
  | .testNotice h fields => Sys2Proof.Machine.execTestNotice h fields s
  | .jacketView h fields => Sys2Proof.Machine.execJacketView h fields s
  | .frozenFirst h fields => Sys2Proof.Machine.execFrozenFirst h fields s
  | .frozenNext h fields => Sys2Proof.Machine.execFrozenNext h fields s
  | .recordView h fields => Sys2Proof.Machine.execRecordView h fields s
  | .registerList h fields => Sys2Proof.Machine.execRegisterList h fields s
  | .commandUnsupported h fields => Sys2Proof.Machine.execCommandUnsupported h fields s

end Sys2Proof.Machine
end

