-- ==== Sys2Proof/Machine/Step.lean ====
section
/-! DEFINITION. One step of the machine: the command at the front of the queue, or one millisecond of the part's time base. -/
namespace Sys2Proof.Machine

/-- The step of a machine on whose queue no command waits: a millisecond passes (log entry 3). -/
def idle (s : State) : State := s.withPart s.part.tick

/-- One step: the command at the front of the queue acts on the machine with the queue's rest; on an empty queue the part idles. -/
def step (s : State) : Host.Outcome State Fault Refusal :=
  match s.pending with
  | [] => .next (idle s)
  | c :: rest => exec c { s with pending := rest }

/-- The machine with the command a word spells at the front of its queue. -/
def State.withFetchWord (s : State) (nbits w : Nat) : State :=
  match decodeTableWord nbits w with
  | some c => { s with pending := c :: s.pending }
  | none => s

end Sys2Proof.Machine
end

