-- ==== Sys2Proof/Safety.lean ====
section
/-! DEFINITION. What a sound state of the part is: the laws the spec states for every state, as properties of one state. Each is meant as an
invariant that every step keeps. -/
namespace Sys2Proof.Machine

/-- The insertion queue holds at most 16 frames, at most 12 of them NORMAL (R6). -/
def Controller.QueueBounded (c : Controller) : Prop :=
  c.ring.queue.length ≤ Config.queueCapacity ∧ normalCount c.ring.queue ≤ Config.normalCapacity

/-- The forward buffer holds at most 4 frames (R3). -/
def Controller.ForwardBounded (c : Controller) : Prop := c.ring.forward.length ≤ Config.forwardCapacity

/-- The outstanding list holds at most 16 entries, numbered one after another (modulo 256) up to the number before the sequence
counter's (R10, R11). -/
def Controller.OutstandingNumbered (c : Controller) : Prop :=
  c.ring.sequence < 256 ∧ c.ring.outstanding.length ≤ Config.outstandingCapacity ∧
    c.ring.outstanding.map OutEntry.sequence =
      (List.range c.ring.outstanding.length).map fun i =>
        (c.ring.sequence + 256 - c.ring.outstanding.length + i) % 256

/-- The register holds at most 64 records, no two with the same serial, each in a slot of its own from 0 to 63 (R40). -/
def Controller.RegisterSound (c : Controller) : Prop :=
  c.records.length ≤ Config.registerCapacity ∧ (c.records.map Record.serial).Nodup ∧
    (c.records.map Record.slot).Nodup ∧ ∀ r ∈ c.records, r.slot < Config.registerCapacity

/-- While the line is STOPPED the register is empty, and so it is in a hold taken from STOPPED; the hold-from state is never HOLDING (R42, R169,
R173). -/
def Controller.StoppedEmpty (c : Controller) : Prop :=
  (c.line.state = .stopped → c.records = []) ∧
    (c.line.state = .holding → c.line.holdFrom = .stopped → c.records = []) ∧ c.line.holdFrom ≠ .holding

/-- While a jacket's verified flag is set, its verified date equals the plant date (R144). -/
def Controller.VerifiedToday (c : Controller) : Prop :=
  ∀ n : JacketNo, (c.verif n).verified = true → (c.verif n).date = c.line.date

/-- Every jacket's consecutive-invalid count lies in 0 to 3 (R144, R150). -/
def Controller.CountsBounded (c : Controller) : Prop := ∀ n : JacketNo, (c.verif n).count ≤ 3

/-- Valid owner windows are aligned to their size, whose exponent is 8 to 24, and never overlap (R23, R24). -/
def Tables.WindowsSound (t : Tables) : Prop :=
  (∀ i : Fin 16, (t.windows.get i).valid = true →
      8 ≤ (t.windows.get i).k ∧ (t.windows.get i).k ≤ 24 ∧ (t.windows.get i).base % 2 ^ (t.windows.get i).k = 0) ∧
    ∀ i j : Fin 16, i ≠ j → (t.windows.get i).valid = true → (t.windows.get j).valid = true →
      (t.windows.get i).overlaps (t.windows.get j) = false

/-- At most one node holds each role and each jacket number; addresses 0 and 63 and the part's own hold NONE (R33, R38). -/
def Controller.MapSound (c : Controller) : Prop :=
  (∀ i j : Fin 64, i ≠ j → (c.tables.stations.get i).clashes (c.tables.stations.get j) = false) ∧
    ∀ i : Fin 64, i.val = 0 ∨ i.val = 63 ∨ i.val = c.ring.nodeAddress.toNat → c.tables.stations.get i = .none

/-- A valid type entry has every field in its range, and an invalid one holds the values of R20. -/
def Tables.TypesSound (t : Tables) : Prop :=
  ∀ i : Fin 128, t.types.get i = .invalid ∨ ((t.types.get i).valid = true ∧ (t.types.get i).fieldsInRange = true)

/-- Every step block satisfies steps 1 and 2 of R28. -/
def Tables.BlocksSound (t : Tables) : Prop := ∀ i : Fin 96, (t.blocks.get i).fieldsOk = true

/-- Every configuration item lies in its range (R176). -/
def Items.Sound (i : Items) : Prop :=
  (i.plantCode.length = 4 ∧ i.plantCode.all isAlnum = true) ∧ inRange 5 250 i.returnTime = true ∧
    inRange 100 10000 i.sampleAgeLimit = true ∧ inRange 0 11 i.advanceWindow = true ∧
    inRange 1 50 i.thermalLimit = true ∧ inRange 10 1000 i.zeroThreshold = true

/-- In bypass every block but the receiver, the forward buffer and the transmitter stays at its power-on state (R18). -/
def Controller.BypassQuiet (c : Controller) : Prop :=
  c.bypass = true →
    c.ring.queue = [] ∧ c.ring.outstanding = [] ∧ c.ring.sequence = 0 ∧ c.tables = .powerOn ∧ c.records = [] ∧
      c.mark = .powerOn ∧ c.jackets = Vector.replicate 8 .powerOn ∧ c.verification = Vector.replicate 8 .powerOn ∧
      c.line = .powerOn ∧ c.notices = Vector.replicate 12 .powerOn ∧
      c.responder = { buffer := .empty, frozen := none }

/-- A jacket in DISABLED or IDLE holds neither serial and serves no record (R93). -/
def Jacket.Quiet (j : Jacket) : Prop :=
  j.state = .disabled ∨ j.state = .idle → j.awaited = none ∧ j.loaded = none ∧ j.slot = none

/-- Every jacket in DISABLED or IDLE holds neither serial and serves no record (R93). -/
def Controller.JacketsQuiet (c : Controller) : Prop := ∀ n : JacketNo, (c.jacket n).Quiet

/-- While the line is HOLDING, the insertion queue holds no frame of the hold set (R7, R16). -/
def Controller.HoldQuiet (c : Controller) : Prop :=
  c.line.state = .holding → ∀ e ∈ c.ring.queue, e.body.holdSet = false

/-- The infeed mark's reason set holds exactly the conditions that fail, and its value is RELEASED exactly when none does (R52, R53). -/
def Controller.Judged (c : Controller) : Prop :=
  c.mark.reasons = c.infeedReasons ∧ c.mark.value = c.infeedReasons.wanted

/-- While the plant date is unset the line has not been started since power-on: it is STOPPED, or HOLDING from STOPPED, and the register is
empty (R142, R170). -/
def Controller.DateSet (c : Controller) : Prop :=
  c.line.date = none →
    (c.line.state = .stopped ∨ (c.line.state = .holding ∧ c.line.holdFrom = .stopped)) ∧ c.records = []

/-- Jacket n and a record of the list name each other: an AWAITING jacket a ROUTED record and its serial, a RUNNING, RECOVERING or HELD_VENTED one
a TESTING record and its serial, an UNLOADING one an UNLOADING record and its serial (R83, R93). -/
def Controller.Pairs (c : Controller) (n : JacketNo) (r : Record) : Prop :=
  r ∈ c.records ∧ r.jacket = some n ∧ (c.jacket n).slot = some r.slot ∧
    match (c.jacket n).state with
    | .awaiting => r.state = .routed ∧ (c.jacket n).awaited = some r.serial
    | .running _ | .recovering _ | .heldVented => r.state = .testing ∧ (c.jacket n).loaded = some r.serial
    | .unloading => r.state = .unloading ∧ (c.jacket n).loaded = some r.serial
    | .disabled | .idle | .fault _ => False

/-- Whether a jacket in this state serves a record: in AWAITING, RUNNING, HELD_VENTED, UNLOADING and every RECOVERING but RESTART's (R93, R120). -/
def JacketState.serves : JacketState → Bool
  | .awaiting | .running _ | .heldVented | .unloading => true
  | .recovering reason => reason != .restart
  | .disabled | .idle | .fault _ => false

/-- The law of R83: a ROUTED or TESTING record and its jacket name each other, and so do a jacket that serves a record and that record. With it
what the law rests on: a sound register, no release pending but in LEAVING, SCRAPPING and MANUAL_HELD (R58 to R60), and no record served by a
jacket that RESTART left venting (R120). -/
def Controller.Paired (c : Controller) : Prop :=
  c.RegisterSound ∧
    (∀ r ∈ c.records, r.releasePending = true → r.state = .leaving ∨ r.state = .scrapping ∨ r.state = .manualHeld) ∧
    (∀ r ∈ c.records, r.state = .routed ∨ r.state = .testing → ∃ n : JacketNo, c.Pairs n r) ∧
    (∀ n : JacketNo, (c.jacket n).state.serves = true → ∃ r : Record, c.Pairs n r) ∧
    ∀ n : JacketNo, (c.jacket n).state = .recovering .restart → (c.jacket n).slot = none

/-- A property of the part that every step keeps. -/
def KeptByEveryStep (p : Controller → Prop) : Prop := ∀ s t : State, step s = .next t → p s.part → p t.part

/-- Whether a command is POWER_ON, the one command that starts every block afresh (R18). -/
def isPowerOn : Instr → Bool
  | .powerOn _ _ => true
  | _ => false

/-- Two forms of one record: everything admission fixed is the same (R41). -/
def Record.SameIdentity (r r' : Record) : Prop :=
  r'.slot = r.slot ∧ r'.serial = r.serial ∧ r'.typeCode = r.typeCode ∧ r'.spec = r.spec ∧ r'.owner = r.owner ∧
    r'.returnCondemned = r.returnCondemned ∧ r'.tare = r.tare ∧ r'.lastYear = r.lastYear ∧ r'.lastMonth = r.lastMonth

/-! ### What a command finds and what it leaves -/

/-- The part is in service, and a frame of this header with a payload of n bytes is one it places in its forward buffer: it passes the length
check, it is not the part's own, and the buffer has room (R1, R2, R18). -/
abbrev Controller.Hears (c : Controller) (h : Header) (n : Nat) : Prop :=
  c.bypass = false ∧ n ≤ Config.maxPayload ∧ h.source.toNat ≠ c.ring.nodeAddress.toNat ∧ c.forwardRoom = true

/-- The part takes a MANAGE frame of this header with a payload of n bytes (R4). -/
abbrev Controller.Takes (c : Controller) (h : Header) (n : Nat) : Prop :=
  c.Hears h n ∧ h.destination.toNat = c.ring.nodeAddress.toNat ∧ c.responder.buffer = .empty

/-- The reply to a request of this header (R181). -/
def replyTo (h : Header) (kind : Nat) (reason : Option Reason) (data : List Byte) : Reply :=
  { destination := h.source.toNat, kind, reason, data }

/-- A reply has been made: it waits in the reply buffer or stands in the insertion queue (R181). -/
def Controller.Replied (c : Controller) (r : Reply) : Prop :=
  c.responder.buffer = .holding r ∨ ∃ e ∈ c.ring.queue, e.body = .reply r

/-- A notice has been raised with this detail: its class is pending with it, or a NOTICE with it stands in the queue (R178, R179). -/
def Controller.Reported (c : Controller) (cls : NoticeClass) (subject cause : Nat) : Prop :=
  ((c.notice cls).pending = true ∧ (c.notice cls).subject = subject ∧ (c.notice cls).cause = cause) ∨
    ∃ e ∈ c.ring.queue, ∃ count, e.body = .notice cls count subject cause

/-- An order of the record in a slot has been made: it stands in the queue or is owed (R84, R157). -/
def Controller.Ordered (c : Controller) (slot : Nat) (serial : Serial) (o : Order) : Prop :=
  (∃ e ∈ c.ring.queue, e.owner = .record slot ∧ e.body = o.body serial) ∨
    ∃ r, c.recordAt slot = some r ∧ o ∈ r.owedOrders

/-- A command of a jacket has been made: it stands in the queue or is owed (R94). -/
def Controller.Commanded (c : Controller) (n : JacketNo) (k : Command) : Prop :=
  (c.jacket n).owedCommand = some k ∨ ∃ e ∈ c.ring.queue, e.owner = .jacket n ∧ e.body = .command n k

/-- Jacket n has been emptied and is IDLE. The other jackets are as they were, but that an owed command may have been placed; the waiting queue
holds the same cylinders, the register is sound, and the line, the tables and the verification are the same (R88, R89, R114). -/
def Controller.Freed (c d : Controller) (n : JacketNo) : Prop :=
  d.jacket n = { c.jacket n with
      state := .idle, awaited := none, loaded := none, slot := none, owedCommand := (d.jacket n).owedCommand } ∧
    (∀ m : JacketNo, m ≠ n → d.jacket m = { c.jacket m with owedCommand := (d.jacket m).owedCommand }) ∧
    d.waitingQueue.map Record.serial = c.waitingQueue.map Record.serial ∧ d.RegisterSound ∧ d.line = c.line ∧
    d.tables = c.tables ∧ d.verification = c.verification

/-- The record in a slot stands in MANUAL_HELD with this cause, and owes and awaits no order (R43). -/
def Controller.Held (c : Controller) (r : Record) (cause : HeldCause) : Prop :=
  ∃ r', c.recordAt r.slot = some r' ∧ r.SameIdentity r' ∧ r'.state = .manualHeld ∧ r'.heldCause = some cause ∧
    r'.owedOrders = [] ∧ ∀ e ∈ c.ring.queue, e.owner = .record r.slot → e.body.isOrder = false

/-- The jacket passes made when the line becomes RUNNING or STOPPING, from jacket 0 to jacket 7 (R81). -/
def Controller.eightPasses (c : Controller) : Controller :=
  (((((((c.jacketPass 0).jacketPass 1).jacketPass 2).jacketPass 3).jacketPass 4).jacketPass 5).jacketPass 6).jacketPass 7

/-- The part once a request of this frame has been taken and before it is acted on (R2, R4). -/
def Controller.taken (c : Controller) (frame : List Byte) : Controller :=
  (c.placeForward frame).setBuffer .taken

/-- The records and the jackets are those that these passes leave, and so is the queue, but for frames placed behind (R81, R181). -/
def Controller.CarriesOn (passed d : Controller) : Prop :=
  d.records = passed.records ∧ d.jackets = passed.jackets ∧ d.verification = passed.verification ∧
    passed.ring.queue <+: d.ring.queue

/-- Everything outside the insertion queue, the infeed mark, the notices and the reply buffer is the same, and the forward buffer holds one more
frame: what a request that only answers leaves (R2, R4, R181). -/
def Controller.OnlyAnswers (c d : Controller) (frame : List Byte) : Prop :=
  d.ring.forward = c.ring.forward ++ [frame] ∧ d.ring.outstanding = c.ring.outstanding ∧
    d.ring.transmitter = c.ring.transmitter ∧ d.ring.sequence = c.ring.sequence ∧ d.ring.status = c.ring.status ∧
    d.tables = c.tables ∧ d.records = c.records ∧ d.jackets = c.jackets ∧ d.verification = c.verification ∧ d.line = c.line

end Sys2Proof.Machine
end

