-- ==== Sys2Proof/Certificates/Slice0/Obligations.lean ====
section
/-! DEFINITION. The statements for the provers. Each says what a command or a step does, by the rules of the spec its entry in OBLIGATIONS.json
names. `s.part` is the part before the command, `t` the part after it. -/
open Sys2Proof Sys2Proof.Machine

/-! ### The step and the queue of commands -/

/-- A step runs the command at the front of the queue on the machine with the queue's rest. -/
def Obligations.StepRunsFrontCommand : Prop :=
  ∀ (i : Instr) (rest : List Instr) (p : Controller),
    step { part := p, pending := i :: rest } = exec i { part := p, pending := rest }

/-- Every command answers a next state, and none touches the queue of commands. On an empty queue one millisecond passes (log entry 3, the model's
choice): the time base and the lock count advance, RUNNING and RECOVERING jackets count it, their sample ages only while the ring is UP and at
most to 65,535 (R92, R109), and nothing else changes. -/
def Obligations.EveryStepAnswersNext : Prop :=
  (∀ (i : Instr) (s : State), ∃ t : Controller, exec i s = .next { part := t, pending := s.pending }) ∧
  (∀ p : Controller, ∃ t : Controller, step { part := p, pending := [] } = .next { part := t, pending := [] } ∧
     t.ring = { p.ring with clock := p.ring.clock + 1, lockCount := p.ring.lockCount + 1 } ∧
     (∀ n : JacketNo, (p.jacket n).state.pressing = true →
       t.jacket n = { p.jacket n with
         elapsed := (p.jacket n).elapsed + 1
         sampleAge := if p.ring.status = .up then min 65535 ((p.jacket n).sampleAge + 1) else (p.jacket n).sampleAge }) ∧
     (∀ n : JacketNo, (p.jacket n).state.pressing = false → t.jacket n = p.jacket n) ∧
     t.tables = p.tables ∧ t.records = p.records ∧ t.mark = p.mark ∧ t.verification = p.verification ∧ t.line = p.line ∧
     t.notices = p.notices ∧ t.responder = p.responder)

/-! ### Power-on and the pins -/

/-- POWER_ON with HOLD not asserted: the straps are latched and every block takes its power-on state. POWER_ON with HOLD asserted: the line is
HOLDING from STOPPED with the cause LINE_HOLD, and LINE_HOLD is raised; in bypass the line stays STOPPED and no cause is added. That the transmitter
is free after power-on is the model's choice (log entry 26). -/
def Obligations.PowerOnState : Prop :=
  (∀ (straps : NodeAddress) (s : State), ∃ t : Controller, exec (.powerOn straps false) s = .next (s.withPart t) ∧
     t.ring.nodeAddress = straps ∧ t.ring.status = .down ∧ t.ring.forward = [] ∧ t.ring.queue = [] ∧
     t.ring.outstanding = [] ∧ t.ring.transmitter = .free ∧ t.ring.streak = 0 ∧ t.ring.sequence = 0 ∧
     t.tables = .powerOn ∧ t.records = [] ∧ t.mark = .powerOn ∧ (∀ n : JacketNo, t.jacket n = .powerOn) ∧
     (∀ n : JacketNo, t.verif n = .powerOn) ∧ t.line = .powerOn ∧ (∀ k : NoticeClass, t.notice k = .powerOn) ∧
     t.responder = { buffer := .empty, frozen := none }) ∧
  (∀ (straps : NodeAddress) (s : State), ∃ t : Controller, exec (.powerOn straps true) s = .next (s.withPart t) ∧
     t.ring.nodeAddress = straps ∧ t.ring.status = .down ∧ t.records = [] ∧ t.line.causeRing = false ∧ t.line.date = none ∧
     if straps = 0 ∨ straps = 63 then t.line.state = .stopped ∧ t.line.causeLineHold = false
     else t.line.state = .holding ∧ t.line.holdFrom = .stopped ∧ t.line.causeLineHold = true ∧ t.Reported .lineHold 0 0)

/-- HOLD_ASSERTED on a line that is not HOLDING: the hold-from state is kept, the cause LINE_HOLD is present, no frame of the hold set stays in the
queue, a record owes its removed orders again, no jacket stays RUNNING, and LINE_HOLD is raised with subject 0 and cause 0. -/
def Obligations.HoldAssertedEntersHolding : Prop :=
  ∀ s : State, s.part.bypass = false → s.part.line.state ≠ .holding →
    ∃ t : Controller, exec .holdAsserted s = .next (s.withPart t) ∧
      t.line = { s.part.line with state := .holding, holdFrom := s.part.line.state, causeLineHold := true } ∧
      (∀ e ∈ t.ring.queue, e.body.holdSet = false) ∧
      (∀ (n : JacketNo) (k : BlockKind), (s.part.jacket n).state = .running k →
        (t.jacket n).state = .recovering .hold ∧ (t.jacket n).elapsed = 0 ∧ t.Commanded n .vent) ∧
      (∀ (e : QueueEntry) (r : Record) (o : Order), e ∈ s.part.ring.queue → s.part.RegisterSound → e.owner = .record r.slot →
        s.part.recordAt r.slot = some r → r.releasePending = false → e.body = o.body r.serial →
        ∃ r', t.recordAt r.slot = some r' ∧ r'.state = r.state ∧ o ∈ r'.owedOrders) ∧
      t.Reported .lineHold 0 0 ∧ t.tables = s.part.tables ∧ t.verification = s.part.verification ∧
      t.ring.outstanding.map OutEntry.sequence = s.part.ring.outstanding.map OutEntry.sequence

/-- HOLD_ASSERTED on a line already HOLDING makes the cause present and nothing else; in bypass HOLD has no effect. HOLD_RELEASED removes the cause
LINE_HOLD and changes nothing else, the line state least of all; in bypass it has no effect. RX_LOCK_LOST and RX_LOCK_REGAINED change the
receiver's lock and start its count afresh; a change to the state it has changes nothing. -/
def Obligations.PinEventsAlone : Prop :=
  (∀ s : State,
     (s.part.bypass = true → exec .holdAsserted s = .next s) ∧
     (s.part.bypass = false → s.part.line.state = .holding →
       exec .holdAsserted s = .next (s.withPart { s.part with line := { s.part.line with causeLineHold := true } }))) ∧
  (∀ s : State,
     (s.part.bypass = true → exec .holdReleased s = .next s) ∧
     (s.part.bypass = false →
       exec .holdReleased s = .next (s.withPart { s.part with line := { s.part.line with causeLineHold := false } }))) ∧
  (∀ s : State,
     (s.part.ring.locked = true →
       exec .rxLockLost s = .next (s.withPart { s.part with ring := { s.part.ring with locked := false, lockCount := 0 } }) ∧
       exec .rxLockRegained s = .next s) ∧
     (s.part.ring.locked = false →
       exec .rxLockRegained s = .next (s.withPart { s.part with ring := { s.part.ring with locked := true, lockCount := 0 } }) ∧
       exec .rxLockLost s = .next s))

/-- RING_DOWN once a loss of lock has lasted 10 ms: the status is DOWN, the line is HOLDING with the cause RING, and the outstanding list is empty.
Before that it changes nothing (log entry 4, the model's choice). RING_UP once lock has lasted 100 ms: the status is UP, the cause RING is gone,
the line state is as it was, and RING_RESTORED is raised. Before that it changes nothing (log entry 4, the model's choice). -/
def Obligations.RingStatusChanges : Prop :=
  (∀ s : State,
     (s.part.bypass = false → s.part.ring.status = .up → s.part.ring.locked = false → 10 ≤ s.part.ring.lockCount →
       ∃ t : Controller, exec .ringDown s = .next (s.withPart t) ∧ t.ring.status = .down ∧ t.line.state = .holding ∧
         t.line.causeRing = true ∧ t.line.causeLineHold = s.part.line.causeLineHold ∧ t.ring.outstanding = [] ∧
         t.tables = s.part.tables ∧ t.ring.forward = s.part.ring.forward ∧ t.ring.sequence = s.part.ring.sequence) ∧
     (s.part.ring.status = .down ∨ s.part.ring.locked = true ∨ s.part.ring.lockCount < 10 → exec .ringDown s = .next s)) ∧
  (∀ s : State,
     (s.part.bypass = false → s.part.ring.status = .down → s.part.ring.locked = true → 100 ≤ s.part.ring.lockCount →
       ∃ t : Controller, exec .ringUp s = .next (s.withPart t) ∧ t.ring.status = .up ∧
         t.line = { s.part.line with causeRing := false } ∧ t.Reported .ringRestored 0 0 ∧ t.tables = s.part.tables ∧
         t.records = s.part.records ∧ t.jackets = s.part.jackets ∧ t.ring.outstanding = s.part.ring.outstanding) ∧
     (s.part.ring.status = .up ∨ s.part.ring.locked = false ∨ s.part.ring.lockCount < 100 → exec .ringUp s = .next s))

/-! ### Reception -/

/-- The receiver reads exactly the frames of the frame layout: bytes pass the checks as a frame if and only if they are that frame's bytes on the
wire and its payload has at most 200 bytes. -/
def Obligations.ReceiverReadsTheFrameLayout : Prop :=
  ∀ (bytes : List Byte) (f : Frame), checkFrame bytes = some f ↔ f.payload.length ≤ 200 ∧ f.wire = bytes

/-- FRAME_DISCARDED: bytes that fail the checks, and a frame of another node that finds the forward buffer full, change nothing. FORWARDED_FRAME: a
frame the part does not read is placed at the tail of the forward buffer, unchanged, and nothing else changes. In bypass the bytes of any frame
received whole are. A management request that finds the reply buffer occupied is forwarded and has no other effect; that its trailer is the one
it came with, so that a mark already set stays set, is the reading of log entry 30 (R4 says the mark is left clear). -/
def Obligations.FramesNotActedOn : Prop :=
  (∀ (bytes : List Byte) (s : State), s.part.bypass = false →
     (checkFrame bytes = none ∨
       ∃ f : Frame, checkFrame bytes = some f ∧ f.header.source.toNat ≠ s.part.ring.nodeAddress.toNat ∧
         4 ≤ s.part.ring.forward.length) →
     exec (.frameDiscarded bytes) s = .next s) ∧
  (∀ (bytes : List Byte) (s : State), s.part.ring.forward.length < 4 →
     (s.part.bypass = true ∨
       (s.part.bypass = false ∧ ∃ f : Frame, checkFrame bytes = some f ∧
         f.header.source.toNat ≠ s.part.ring.nodeAddress.toNat ∧
         (f.kind.toNat = 48 → f.header.destination.toNat ≠ s.part.ring.nodeAddress.toNat) ∧
         (1 ≤ f.kind.toNat → f.kind.toNat ≤ 8 → s.part.roleAt f.header.source.toNat = .none))) →
     exec (.forwardedFrame bytes) s =
       .next (s.withPart { s.part with ring := { s.part.ring with forward := s.part.ring.forward ++ [bytes] } })) ∧
  (∀ (s : State) (h : Header) (p : List Byte), s.part.Hears h p.length →
     h.destination.toNat = s.part.ring.nodeAddress.toNat → s.part.responder.buffer ≠ .empty →
     exec (.manageNotTaken h p) s = .next (s.withPart (s.part.placeForward (manageFrame h p).wire)))

/-- RETURN_MATCHING: the entries up to the matched one leave the outstanding list; with no match nothing changes. A returning frame is not forwarded.
RETURN_TIMEOUT: every entry at the head of the list whose age has reached the ring return time is removed, and no other. An entry older than the
match, and an expired one, is removed exactly as if its own frame had come back untaken, before the return is matched or the next entry judged:
it is undelivered, oldest first. -/
def Obligations.OutstandingEntriesRemoved : Prop :=
  (∀ (destination kind sequence : Byte) (payload : List Byte) (trailer : Byte) (s : State),
     s.part.bypass = false → payload.length ≤ 200 →
     (∀ k, (s.part.ring.outstanding.map OutEntry.sequence).findIdx? (· == sequence.toNat) = some k →
       ∃ t : Controller, exec (.returnMatching destination kind sequence payload trailer) s = .next (s.withPart t) ∧
         t.ring.outstanding.map OutEntry.sequence = (s.part.ring.outstanding.map OutEntry.sequence).drop (k + 1) ∧
         t.ring.forward = s.part.ring.forward) ∧
     ((∀ e ∈ s.part.ring.outstanding, e.sequence ≠ sequence.toNat) →
       exec (.returnMatching destination kind sequence payload trailer) s = .next s)) ∧
  (∀ s : State, ∃ t : Controller, exec .returnTimeout s = .next (s.withPart t) ∧
     t.ring.outstanding.map OutEntry.sequence =
       (s.part.ring.outstanding.dropWhile fun e =>
         decide (s.part.line.items.returnTime ≤ s.part.ring.clock - e.start)).map OutEntry.sequence) ∧
  (∀ (d k n : Byte) (p : List Byte) (m : Byte) (s untaken : State) (e : OutEntry) (rest : List OutEntry),
     s.part.bypass = false → s.part.ring.outstanding = e :: rest → p.length ≤ 200 → n.toNat = e.sequence →
     m.getLsbD 0 = false → d.toNat ≠ 63 → exec (.returnMatching d k n p m) s = .next untaken →
     (∀ (destination kind sequence : Byte) (payload : List Byte) (trailer : Byte), payload.length ≤ 200 →
       sequence.toNat ≠ e.sequence → (∃ x ∈ rest, x.sequence = sequence.toNat) →
       exec (.returnMatching destination kind sequence payload trailer) s =
         exec (.returnMatching destination kind sequence payload trailer) untaken) ∧
     (s.part.line.items.returnTime ≤ s.part.ring.clock - e.start → exec .returnTimeout s = exec .returnTimeout untaken))

/-- A delivered JACKET COMMAND, INFEED, TEST RESULT, NOTICE or REPLY, and a delivered recordless gate order, has no effect but its removal, and
neither has a NOTICE, a REPLY or a frame without an owner that comes back untaken. A frame returns delivered with its taken mark set or its
destination broadcast. An undelivered JACKET COMMAND faults a jacket that holds a cylinder with STATION: it serves no record any more, and
JACKET_FAULT is raised. It has no effect on a jacket in DISABLED, IDLE, AWAITING or FAULT. An undelivered recordless gate order, TEST RESULT or
INFEED raises UNDELIVERED. If the infeed mark then still holds the value the frame carried, HOLD or RELEASE, it makes the frame again, placed or
owed with origin REPEAT in place of any frame it owed; if the mark has changed, nothing is offered. -/
def Obligations.OutcomesOfOwnFrames : Prop :=
  ∀ (destination kind sequence : Byte) (payload : List Byte) (trailer : Byte) (s : State) (e : OutEntry) (rest : List OutEntry),
    s.part.bypass = false → payload.length ≤ 200 → s.part.ring.outstanding = e :: rest → e.sequence = sequence.toNat →
    let i : Instr := .returnMatching destination kind sequence payload trailer
    let removed : Controller := { s.part with ring := { s.part.ring with outstanding := rest } }
    let delivered : Prop := trailer.getLsbD 0 = true ∨ destination.toNat = 63
    (delivered →
      ((∃ n, e.owner = .jacket n) ∨ e.owner = .infeed ∨ (∃ k, e.owner = .notice k) ∨ e.owner = .reply ∨
        (∃ x, e.owner = .recordless x) ∨ (∃ slot x r, e.owner = .record slot ∧ e.body = .testResult x r)) →
      exec i s = .next (s.withPart removed)) ∧
    ((∃ k, e.owner = .notice k) ∨ e.owner = .reply ∨ e.owner = .lost → exec i s = .next (s.withPart removed)) ∧
    (∀ n : JacketNo, ¬delivered → e.owner = .jacket n →
      ∃ t : Controller, exec i s = .next (s.withPart t) ∧
        ((s.part.jacket n).state.pressing = true ∨ (s.part.jacket n).state = .heldVented ∨
            (s.part.jacket n).state = .unloading →
          (t.jacket n).state = .fault .station ∧ (t.jacket n).slot = none ∧ t.Reported .jacketFault n.val 1) ∧
        ((s.part.jacket n).state = .disabled ∨ (s.part.jacket n).state = .idle ∨ (s.part.jacket n).state = .awaiting ∨
            (s.part.jacket n).state.isFault = true →
          t = removed)) ∧
    (∀ x : Serial, ¬delivered → e.owner = .recordless x →
      ∃ t : Controller, exec i s = .next (s.withPart t) ∧ t.Reported .undelivered x 17 ∧ t.records = s.part.records ∧
        t.jackets = s.part.jackets) ∧
    (∀ (r : Record) (x : Serial) (l : LastResult), ¬delivered → e.owner = .record r.slot → s.part.recordAt r.slot = some r →
      e.body = .testResult x l →
      ∃ t : Controller, exec i s = .next (s.withPart t) ∧ t.Reported .undelivered r.serial 32 ∧ t.records = s.part.records ∧
        t.jackets = s.part.jackets) ∧
    (¬delivered → e.owner = .infeed → e.body = .infeed .hold → s.part.Judged → s.part.mark.value = .held →
      ∃ t : Controller, exec i s = .next (s.withPart t) ∧ t.Reported .undelivered 0 16 ∧
        ((∃ q ∈ t.ring.queue, q.owner = .infeed ∧ q.body = .infeed .hold) ∨
          t.mark.owed = some { order := .hold, origin := .repeated })) ∧
    (∀ o : InfeedOrder, ¬delivered → e.owner = .infeed → e.body = .infeed o →
      let c : Controller := removed.raise .undelivered 0 16
      let stillHolds : Prop := (o = .hold ∧ c.mark.value = .held) ∨ (o = .release ∧ c.mark.value = .released)
      let again : QueueEntry :=
        { destination := c.nodeWhere (· == .entry), body := .infeed o, owner := .infeed, clearedEnable := false, testMark := false }
      c.Reported .undelivered 0 16 ∧
      (¬stillHolds → exec i s = .next (s.withPart c)) ∧
      (stillHolds → c.hasRoom (.infeed o) = true →
        exec i s = .next (s.withPart
          { c with ring := { c.ring with queue := c.ring.queue ++ [again] }, mark := { c.mark with owed := none } })) ∧
      (stillHolds → c.hasRoom (.infeed o) = false →
        exec i s = .next (s.withPart { c with mark := { c.mark with owed := some { order := o, origin := .repeated } } })))

/-- The outcome of an order at its record. It has no effect but its removal when the record does not await it, when it stands no longer, or when the
release is pending. A delivered gate order to an outgoing lane releases a LEAVING record, at once when it owes no TEST RESULT. Other delivered orders
change nothing. An undelivered order holds its record as MANUAL_HELD(UNDELIVERED) and raises UNDELIVERED with its serial and its kind, and the jacket
that awaited the cylinder awaits it no longer: with no record waiting, or in a line that makes no assignment, it is IDLE and empty. The state left is
the one its jacket pass makes of the freed jacket, whose other fields stay as they were (log entry 22, the model's reading). The release of the last
record of a STOPPING line makes it STOPPED and raises LINE_STOPPED; while another record stays, or in another state, the line is as it was. ROUTED
awaits the gate order to the record's jacket, STAMPING and SCRAPPING the two orders of their pair, LEAVING a gate order to an outgoing lane. -/
def Obligations.OutcomesOfOrders : Prop :=
  ∀ (destination kind sequence : Byte) (payload : List Byte) (trailer : Byte) (s : State) (e : OutEntry) (rest : List OutEntry)
    (r : Record),
    s.part.bypass = false → payload.length ≤ 200 → s.part.ring.outstanding = e :: rest → e.sequence = sequence.toNat →
    s.part.RegisterSound → s.part.recordAt r.slot = some r → e.owner = .record r.slot → e.body.isOrder = true →
    let i : Instr := .returnMatching destination kind sequence payload trailer
    let removed : Controller := { s.part with ring := { s.part.ring with outstanding := rest } }
    let delivered : Prop := trailer.getLsbD 0 = true ∨ destination.toNat = 63
    let held : Prop := ∃ (t : Controller) (r' : Record), exec i s = .next (s.withPart t) ∧ t.recordAt r.slot = some r' ∧
      r.SameIdentity r' ∧ r'.state = .manualHeld ∧ r'.heldCause = some .undelivered ∧
      t.Reported .undelivered r.serial e.body.kind ∧
      ∀ n : JacketNo, r.state = .routed → r.jacket = some n → (s.part.jacket n).state = .awaiting →
        (s.part.jacket n).awaited = some r.serial →
        (t.jacket n).awaited ≠ some r.serial ∧
        (s.part.waitingQueue = [] ∨ (s.part.line.state ≠ .running ∧ s.part.line.state ≠ .stopping) →
          (t.jacket n).state = .idle ∧ (t.jacket n).awaited = none ∧ (t.jacket n).loaded = none ∧ (t.jacket n).slot = none)
    let passed : Prop := ∀ n : JacketNo, r.state = .routed → r.jacket = some n → (s.part.jacket n).state = .awaiting →
      ∃ u : Controller, s.part.Freed u n ∧ u.Held r .undelivered ∧ u.Reported .undelivered r.serial e.body.kind ∧
        exec i s = .next (s.withPart (u.jacketPass n))
    (∀ (x : Serial) (marks : List Byte),
      (∀ n, r.awaitsOutcome (.gate x (.jacket n)) = true ↔ r.state = .routed ∧ r.jacket = some n) ∧
      (r.awaitsOutcome (.gate x .stamp) = true ↔ r.state = .stamping) ∧
      (r.awaitsOutcome (.stampOrder x marks) = true ↔ r.state = .stamping) ∧
      (r.awaitsOutcome (.gate x .scrap) = true ↔ r.state = .scrapping) ∧
      (r.awaitsOutcome (.scrapOrder x) = true ↔ r.state = .scrapping) ∧
      (∀ lane, lane = .fill ∨ lane = .returnLane ∨ lane = .manual ∨ lane = .rework ∨ lane = .reference →
        (r.awaitsOutcome (.gate x lane) = true ↔ r.state = .leaving))) ∧
    (e.stands = false ∨ r.releasePending = true ∨ r.awaitsOutcome e.body = false → exec i s = .next (s.withPart removed)) ∧
    (e.stands = true → r.releasePending = false → r.awaitsOutcome e.body = true →
      (¬delivered → held ∧ passed) ∧
      (delivered → r.state ≠ .leaving → exec i s = .next (s.withPart removed)) ∧
      (delivered → r.state = .leaving →
        (r.resultOwed = false → ∃ t : Controller, exec i s = .next (s.withPart t) ∧ t.recordAt r.slot = none ∧
          (s.part.line.state = .stopping → s.part.records = [r] →
            t.line = { s.part.line with state := .stopped } ∧ t.Reported .lineStopped 0 0) ∧
          (s.part.line.state ≠ .stopping ∨ (∃ x ∈ s.part.records, x.slot ≠ r.slot ∧ x.releasePending = false) →
            t.line = s.part.line)) ∧
        (r.resultOwed = true → ∃ t : Controller, exec i s = .next (s.withPart t) ∧
          t.recordAt r.slot = some { r with releasePending := true } ∧ t.ring.queue = s.part.ring.queue)))

/-! ### The transmitter -/

/-- An own frame starts when the transmitter is free, the ring is UP, fewer than 16 entries are outstanding, the part is not in bypass, and no
forwarded frame waits or the streak count stands at 4: the oldest URGENT frame (a VENT or an INFEED HOLD), or the oldest frame when none is URGENT.
It leaves the queue, is sent with the node address, the sequence counter's value and the taken mark clear, and becomes the youngest outstanding
entry with its number, time, kind, destination and owner; the freed entry is judged and arbitrated. The rest of the queue stands in its order (a
pending release completed by that arbitration apart). A forwarded frame starts when one waits and no own frame is a candidate, or one is and the
streak count is below 4; the streak count returns to 0 in the first case and rises by 1 in the second. With no candidate, or a frame in
transmission, nothing changes. TRANSMISSION_COMPLETE frees the transmitter; the entry of a forwarded frame leaves the forward buffer. -/
def Obligations.TransmitterChoosesFrames : Prop :=
  (∀ (s : State) (before later : List QueueEntry) (e : QueueEntry),
      let urgent (x : QueueEntry) : Prop := (∃ n, x.body = .command n .vent) ∨ x.body = .infeed .hold
      let sent : Frame :=
        { header := { destination := BitVec.ofNat 8 e.destination, source := s.part.ring.nodeAddress.setWidth 8,
                      sequence := BitVec.ofNat 8 s.part.ring.sequence, trailer := 0 },
          kind := BitVec.ofNat 8 e.body.kind, payload := e.body.payload }
      let entry : OutEntry :=
        { sequence := s.part.ring.sequence, start := s.part.ring.clock, body := e.body, destination := e.destination,
          owner := e.owner, stands := true }
      let started : Controller :=
        { s.part with ring := { s.part.ring with
            queue := before ++ later, outstanding := s.part.ring.outstanding ++ [entry], transmitter := .own sent.wire,
            streak := 0, sequence := if s.part.ring.sequence = 255 then 0 else s.part.ring.sequence + 1 } }
      let shown (x : OutEntry) : Nat × Nat × Body × Nat := (x.sequence, x.start, x.body, x.destination)
      s.part.ring.transmitter = .free → s.part.ring.status = .up → s.part.bypass = false →
      s.part.ring.outstanding.length < 16 → s.part.ring.sequence < 256 →
      s.part.ring.queue = before ++ e :: later →
      (urgent e ∧ ∀ x ∈ before, ¬urgent x) ∨ (before = [] ∧ ∀ x ∈ e :: later, ¬urgent x) →
      (s.part.ring.forward = [] ∨ 4 ≤ s.part.ring.streak) →
      ∃ t : Controller, exec .transmitterStart s = .next (s.withPart t) ∧ t = (started.judge true).arbitrate ∧
        t.ring.transmitter = .own sent.wire ∧ t.ring.streak = 0 ∧ t.ring.sequence = started.ring.sequence ∧
        t.ring.forward = s.part.ring.forward ∧
        t.ring.outstanding.map shown = s.part.ring.outstanding.map shown ++ [shown entry] ∧
        ((∀ r ∈ s.part.records, r.releasePending = false) →
          t.ring.outstanding = s.part.ring.outstanding ++ [entry] ∧ before ++ later <+: t.ring.queue)) ∧
  (∀ s : State,
     let candidate : Prop :=
       s.part.ring.status = .up ∧ s.part.ring.outstanding.length < 16 ∧ s.part.bypass = false ∧ s.part.ring.queue ≠ []
     (s.part.ring.transmitter = .free → s.part.ring.forward ≠ [] → ¬candidate →
       exec .transmitterStart s =
         .next (s.withPart { s.part with ring := { s.part.ring with transmitter := .forwarding, streak := 0 } })) ∧
     (s.part.ring.transmitter = .free → s.part.ring.forward ≠ [] → candidate → s.part.ring.streak < 4 →
       exec .transmitterStart s =
         .next (s.withPart { s.part with ring :=
           { s.part.ring with transmitter := .forwarding, streak := s.part.ring.streak + 1 } })) ∧
     (s.part.ring.forward = [] → ¬candidate → exec .transmitterStart s = .next s) ∧
     (s.part.ring.transmitter ≠ .free → exec .transmitterStart s = .next s)) ∧
  (∀ s : State,
     (s.part.ring.transmitter = .forwarding →
       exec .transmissionComplete s = .next (s.withPart { s.part with ring :=
         { s.part.ring with transmitter := .free, forward := s.part.ring.forward.tail } })) ∧
     (∀ bytes, s.part.ring.transmitter = .own bytes →
       exec .transmissionComplete s = .next (s.withPart { s.part with ring := { s.part.ring with transmitter := .free } })) ∧
     (s.part.ring.transmitter = .free → exec .transmissionComplete s = .next s))

/-! ### Entry tags -/

/-- The month numbers of R48 and R49 of a tag and of a plant date. The screening's checks, in their order. -/
def Obligations.ScreeningOrder : Prop :=
  (∀ (tag : EntryTag) (plant : Date) (advance interval : Nat),
     (tag.dateUsable plant = true ↔
       1 ≤ tag.lastMonth ∧ tag.lastMonth ≤ 12 ∧ tag.lastYear ≤ 99 ∧
         tag.lastYear * 12 + (tag.lastMonth - 1) ≤ (plant.year - 2000) * 12 + (plant.month - 1)) ∧
     (tag.due plant advance interval = true ↔
       tag.lastYear * 12 + (tag.lastMonth - 1) + 12 * interval ≤ (plant.year - 2000) * 12 + (plant.month - 1) + advance)) ∧
  (∀ (c : Controller) (tag : EntryTag),
     (tag.status ≠ 0 → c.screen tag = .gate .manual) ∧
     (tag.status = 0 → 127 < tag.typeCode → c.screen tag = .gate .manual) ∧
     (∀ e : TypeEntry, tag.status = 0 → c.tables.types[tag.typeCode]? = some e →
       (e.valid = false → c.screen tag = .gate .manual) ∧
       (e.valid = true → (∃ r ∈ c.records, r.serial = tag.serial) → c.screen tag = .duplicate) ∧
       (e.valid = true → (∀ r ∈ c.records, r.serial ≠ tag.serial) →
         (e.reference ≠ none → c.screen tag = .admission e none) ∧
         (e.reference = none → c.tables.windowOf tag.serial = none → c.screen tag = .gate .returnLane) ∧
         (∀ (w : Window) (plant : Date), e.reference = none → c.tables.windowOf tag.serial = some w → c.line.date = some plant →
           (tag.dateUsable plant = false → c.screen tag = .gate .manual) ∧
           (tag.dateUsable plant = true → tag.due plant c.line.items.advanceWindow e.interval = false →
             c.screen tag = .gate .fill) ∧
           (tag.dateUsable plant = true → tag.due plant c.line.items.advanceWindow e.interval = true →
             c.screen tag = .admission e (some w))))))

/-- ENTRY_TAG of a cylinder the screening admits: a record joins the tail of the list, in the lowest free slot, with the tag's fields, the type's
copy, the window's owner and flag, and every optional field absent; no gate order is made. -/
def Obligations.EntryTagAdmits : Prop :=
  ∀ (s : State) (h : Header) (p : List Byte) (tag : EntryTag) (e : TypeEntry) (w : Option Window),
    s.part.Hears h p.length → s.part.roleAt h.source.toNat = .entry → readEntryTag p = some tag →
    s.part.line.state = .running → s.part.records.length < 64 → normalRoom s.part.ring.queue = true →
    s.part.screen tag = .admission e w →
    ∃ (t : Controller) (slot : Nat), exec (.entryTag h p) s = .next (s.withPart t) ∧
      (slot < 64 ∧ (∀ r ∈ s.part.records, r.slot ≠ slot) ∧ ∀ k < slot, ∃ r ∈ s.part.records, r.slot = k) ∧
      t.records = s.part.records ++
        [{ slot, serial := tag.serial, typeCode := tag.typeCode, spec := e, owner := w.map Window.owner,
           returnCondemned := w.map Window.returnCondemned, tare := tag.tare, lastYear := tag.lastYear,
           lastMonth := tag.lastMonth, state := .admitted, heldCause := none, mass := none, findings := none,
           jacket := none, countedInvalids := 0, attempts := 0, verdict := none, verdictDate := none,
           lastResult := none, owedOrders := [], resultOwed := false, stampProgress := none,
           releasePending := false }] ∧
      (∀ x ∈ t.ring.queue, x ∈ s.part.ring.queue ∨ x.owner = .infeed ∨ x.owner = .notice .infeedHeld) ∧
      t.tables = s.part.tables ∧ t.jackets = s.part.jackets ∧ t.verification = s.part.verification ∧ t.line = s.part.line

/-- ENTRY_TAG of a cylinder the screening turns away: no record is made, and a gate order to the lane, with the tag's serial and the ROUTER's
address, is placed without an owner; a duplicate serial goes to MANUAL and raises DUPLICATE_SERIAL. ENTRY_TAG that cannot be acted on makes no
record and no gate order; the infeed mark is judged. -/
def Obligations.EntryTagMakesNoRecord : Prop :=
  (∀ (s : State) (h : Header) (p : List Byte) (tag : EntryTag),
     s.part.Hears h p.length → s.part.roleAt h.source.toNat = .entry → readEntryTag p = some tag →
     s.part.line.state = .running → s.part.records.length < 64 → normalRoom s.part.ring.queue = true →
     (∀ lane, s.part.screen tag = .gate lane →
       ∃ t : Controller, exec (.entryTag h p) s = .next (s.withPart t) ∧ t.records = s.part.records ∧
         { destination := s.part.nodeWhere (· == .router), body := .gate tag.serial lane, owner := .recordless tag.serial,
           clearedEnable := false, testMark := false } ∈ t.ring.queue) ∧
     (s.part.screen tag = .duplicate →
       ∃ t : Controller, exec (.entryTag h p) s = .next (s.withPart t) ∧ t.records = s.part.records ∧
         { destination := s.part.nodeWhere (· == .router), body := .gate tag.serial .manual,
           owner := .recordless tag.serial, clearedEnable := false, testMark := false } ∈ t.ring.queue ∧
         t.Reported .duplicateSerial tag.serial 0)) ∧
  (∀ (s : State) (h : Header) (p : List Byte) (tag : EntryTag),
     s.part.Hears h p.length → s.part.roleAt h.source.toNat = .entry → readEntryTag p = some tag →
     (s.part.line.state ≠ .running ∨ 64 ≤ s.part.records.length ∨ normalRoom s.part.ring.queue = false) →
     ∃ t : Controller, exec (.entryTag h p) s = .next (s.withPart t) ∧ t.records = s.part.records ∧ t.Judged ∧
       (∀ x ∈ t.ring.queue, x ∈ s.part.ring.queue ∨ x.owner = .infeed ∨ x.owner = .notice .infeedHeld))

/-! ### Mass and visual dispositions -/

/-- The change of mass in permille of the tare: rounded half up and formed exactly; a loss is at most 1,000, a gain that would compute above 1,000 is
taken as 1,000 and exceeds every limit of 0 to 500. -/
def Obligations.MassChangePermille : Prop :=
  ∀ t m : Nat, 0 < t →
    massPermille (t - m) t = ((t - m) * 1000 + t / 2) / t ∧ massPermille (t - m) t ≤ 1000 ∧
    massPermille (m - t) t = ((m - t) * 1000 + t / 2) / t ∧
    (t ≤ m → massPermille (t - m) t = 0) ∧ (m ≤ t → massPermille (m - t) t = 0) ∧
    (∀ e : TypeEntry, t < m → e.massGain ≤ 500 → 1000 < massPermille (m - t) t → judgeMass e t m = .gain) ∧
    (∀ e : TypeEntry, m < t → (judgeMass e t m = .loss ↔ e.massLoss < massPermille (t - m) t) ∧ judgeMass e t m ≠ .gain) ∧
    (∀ e : TypeEntry, t < m →
      (judgeMass e t m = .gain ↔ e.massGain < min 1000 (massPermille (m - t) t)) ∧ judgeMass e t m ≠ .loss)

/-- MASS_READING of an ADMITTED record of an ordinary type: no tare, a loss over its limit, a gain over its limit, or within limits. -/
def Obligations.MassReadingDisposes : Prop :=
  ∀ (s : State) (h : Header) (p : List Byte) (serial : Serial) (m : Nat) (r : Record),
    s.part.Hears h p.length → s.part.roleAt h.source.toNat = .scale → readMass p = some (serial, m) →
    s.part.RegisterSound → s.part.recordOf serial = some r → r.state = .admitted → r.releasePending = false →
    r.spec.reference = none →
    ∃ (t : Controller) (r' : Record), exec (.massReading h p) s = .next (s.withPart t) ∧ t.recordOf serial = some r' ∧
      r.SameIdentity r' ∧ r'.mass = some m ∧
      (r.tare = 0 →
        r'.verdict = some (.manual .noTare) ∧ r'.state = .leaving ∧ t.Ordered r.slot serial (.gate .manual)) ∧
      (m < r.tare → r.spec.massLoss < ((r.tare - m) * 1000 + r.tare / 2) / r.tare →
        r'.verdict = some (.fail .massLoss) ∧
        (r.returnCondemned = some true → r'.state = .stamping ∧ t.Ordered r.slot serial (.gate .stamp) ∧
          t.Ordered r.slot serial (.stamp (s.part.line.items.plantCode ++ [0x20, 0x58, 0x58]))) ∧
        (r.returnCondemned ≠ some true → r'.state = .scrapping ∧ t.Ordered r.slot serial (.gate .scrap) ∧
          t.Ordered r.slot serial .scrap)) ∧
      (0 < r.tare → r.tare < m → r.spec.massGain < min 1000 (((m - r.tare) * 1000 + r.tare / 2) / r.tare) →
        r'.verdict = some (.manual .massGain) ∧ r'.state = .leaving ∧ t.Ordered r.slot serial (.gate .manual)) ∧
      (judgeMass r.spec r.tare m = .within →
        r' = { r with mass := some m, state := .weighed } ∧ t.ring.queue = s.part.ring.queue ∧ t.notices = s.part.notices)

/-- VISUAL_FINDINGS of a WEIGHED record of an ordinary type: the action that stands highest in the order MANUAL, CONDEMN, REWORK, ACCEPT among the
codes' entries governs, and an empty list governs ACCEPT. An accepted record becomes WAITING without a jacket, and the state left is the one its
record pass makes (RecordPassAssigns says what that is); with no IDLE jacket it stays WAITING. A reference piece is judged neither by its mass nor
by its findings: it goes on to WEIGHED, and to WAITING with its record pass. -/
def Obligations.FindingsDispose : Prop :=
  (∀ (s : State) (h : Header) (p : List Byte) (serial : Serial) (codes : List Nat) (r : Record),
     s.part.Hears h p.length → s.part.roleAt h.source.toNat = .visual → readFindings p = some (serial, codes) →
     codes.length ≤ 8 → s.part.RegisterSound → s.part.recordOf serial = some r → r.state = .weighed →
     r.releasePending = false → r.spec.reference = none →
     ∃ (t : Controller) (r' : Record), exec (.visualFindings h p) s = .next (s.withPart t) ∧ t.recordOf serial = some r' ∧
       r.SameIdentity r' ∧ r'.findings = some codes ∧
       ((∃ x ∈ codes, s.part.tables.defects[x]? = some .manual) →
         r'.verdict = some (.manual .defect) ∧ r'.state = .leaving ∧ t.Ordered r.slot serial (.gate .manual)) ∧
       ((∀ x ∈ codes, s.part.tables.defects[x]? ≠ some .manual) → (∃ x ∈ codes, s.part.tables.defects[x]? = some .condemn) →
         r'.verdict = some (.fail .defect) ∧
         (r.returnCondemned = some true → r'.state = .stamping ∧ t.Ordered r.slot serial (.gate .stamp)) ∧
         (r.returnCondemned ≠ some true → r'.state = .scrapping ∧ t.Ordered r.slot serial (.gate .scrap))) ∧
       ((∀ x ∈ codes, s.part.tables.defects[x]? ≠ some .manual ∧ s.part.tables.defects[x]? ≠ some .condemn) →
         (∃ x ∈ codes, s.part.tables.defects[x]? = some .rework) →
         r'.verdict = some .rework ∧ r'.state = .leaving ∧ t.Ordered r.slot serial (.gate .rework)) ∧
       ((∀ x ∈ codes, s.part.tables.defects[x]? = some .accept) → (∀ n, (s.part.jacket n).state ≠ .idle) →
         r' = { r with findings := some codes, state := .waiting, jacket := none } ∧ t.ring.queue = s.part.ring.queue) ∧
       ((∀ x ∈ codes, s.part.tables.defects[x]? = some .accept) →
         t = (((s.part.placeForward ({ header := h, kind := 3, payload := p } : Frame).wire).updRecord r.slot
           fun x => { x with findings := some codes, state := .waiting, jacket := none }).recordPass r.slot))) ∧
  (∀ (s : State) (h : Header) (p : List Byte) (serial : Serial) (r : Record),
     s.part.Hears h p.length → s.part.RegisterSound → s.part.recordOf serial = some r → r.releasePending = false →
     r.spec.reference ≠ none →
     (∀ m, s.part.roleAt h.source.toNat = .scale → readMass p = some (serial, m) → r.state = .admitted →
       ∃ t : Controller, exec (.massReading h p) s = .next (s.withPart t) ∧
         t.recordOf serial = some { r with mass := some m, state := .weighed } ∧ t.ring.queue = s.part.ring.queue) ∧
     (∀ codes, s.part.roleAt h.source.toNat = .visual → readFindings p = some (serial, codes) → codes.length ≤ 8 →
       r.state = .weighed →
       exec (.visualFindings h p) s = .next (s.withPart
         (((s.part.placeForward ({ header := h, kind := 3, payload := p } : Frame).wire).updRecord r.slot
           fun x => { x with findings := some codes, state := .waiting, jacket := none }).recordPass r.slot)) ∧
       ((∀ n, (s.part.jacket n).state ≠ .idle) →
         ∃ t : Controller, exec (.visualFindings h p) s = .next (s.withPart t) ∧
           t.recordOf serial = some { r with findings := some codes, state := .waiting, jacket := none } ∧
           t.ring.queue = s.part.ring.queue)))

/-- A report from a source whose role is not the one of its kind is forwarded and has no other effect. A report of the wrong length or of contents
that cannot stand is MALFORMED, one that names no record UNKNOWN_SERIAL, and one whose record awaits another WRONG_STATE: it is dropped and
raises STRAY_REPORT with the role of its source, its serial and that cause, and the register and the jackets stay as they are. -/
def Obligations.ReportsNotTaken : Prop :=
  ∀ (s : State) (h : Header) (p : List Byte), s.part.Hears h p.length →
    let after (kind : Byte) : State := s.withPart (s.part.placeForward ({ header := h, kind, payload := p } : Frame).wire)
    let role := s.part.roleAt h.source.toNat
    let dropped (i : Instr) (serial : Serial) (code cause : Nat) : Prop :=
      ∃ t : Controller, exec i s = .next (s.withPart t) ∧ t.records = s.part.records ∧ t.jackets = s.part.jackets ∧
        t.tables = s.part.tables ∧ t.verification = s.part.verification ∧ t.line = s.part.line ∧
        t.Reported .strayReport serial (code * 16 + cause)
    let judged (i : Instr) (serial : Serial) (code : Nat) (awaited : RecordState) : Prop :=
      (s.part.recordOf serial = none → dropped i serial code 1) ∧
      (∀ r, s.part.recordOf serial = some r → (r.state ≠ awaited ∨ r.releasePending = true) → dropped i serial code 2)
    ((role ≠ .entry → exec (.entryTag h p) s = .next (after 1)) ∧
      (role ≠ .scale → exec (.massReading h p) s = .next (after 2)) ∧
      (role ≠ .visual → exec (.visualFindings h p) s = .next (after 3)) ∧
      (role ≠ .stamp → exec (.stampReport h p) s = .next (after 7)) ∧
      (role ≠ .scrap → exec (.scrapReport h p) s = .next (after 8)) ∧
      ((∀ n size, role ≠ .jacket n size) →
        exec (.jacketArrival h p) s = .next (after 4) ∧ exec (.jacketSample h p) s = .next (after 5) ∧
          exec (.jacketClear h p) s = .next (after 6))) ∧
    ((role = .entry → readEntryTag p = none → dropped (.entryTag h p) (leadingSerial p) 2 0) ∧
      (role = .scale → readMass p = none → dropped (.massReading h p) (leadingSerial p) 3 0) ∧
      (role = .visual → readFindings p = none → dropped (.visualFindings h p) (leadingSerial p) 4 0) ∧
      (role = .stamp → readStampReport p = none → dropped (.stampReport h p) (leadingSerial p) 7 0) ∧
      (role = .scrap → readScrapReport p = none → dropped (.scrapReport h p) (leadingSerial p) 8 0) ∧
      (∀ n size, role = .jacket n size →
        (readSerial p = none → dropped (.jacketArrival h p) (leadingSerial p) 6 0 ∧
          dropped (.jacketClear h p) (leadingSerial p) 6 0) ∧
        (readSample p = none → dropped (.jacketSample h p) 0 6 0))) ∧
    (∀ serial : Serial,
      (∀ m, role = .scale → readMass p = some (serial, m) → judged (.massReading h p) serial 3 .admitted) ∧
      (∀ codes, role = .visual → readFindings p = some (serial, codes) →
        (8 < codes.length → dropped (.visualFindings h p) serial 4 0) ∧
        (codes.length ≤ 8 → judged (.visualFindings h p) serial 4 .weighed)) ∧
      (∀ outcome struck, role = .stamp → readStampReport p = some (serial, outcome, struck) →
        (1 < outcome ∨ 12 < struck → dropped (.stampReport h p) serial 7 0) ∧
        (outcome ≤ 1 → struck ≤ 12 → judged (.stampReport h p) serial 7 .stamping)) ∧
      (∀ outcome, role = .scrap → readScrapReport p = some (serial, outcome) →
        (1 < outcome → dropped (.scrapReport h p) serial 8 0) ∧
        (outcome ≤ 1 → judged (.scrapReport h p) serial 8 .scrapping)))

/-! ### Assignment and routing -/

/-- The chain check, eligibility, and the two passes of the assigner with the line RUNNING or STOPPING. A record pass chooses for an ordinary record
the lowest eligible jacket, for a reference record the lowest eligible unverified one and, if there is none, the lowest eligible one. A jacket
pass chooses the oldest waiting record for which the jacket is eligible. When its chain passes, the record becomes ROUTED to that jacket and to no
other, the jacket AWAITING it, a gate order to it is made, and the other jackets and records stay as they are. When its chain fails, the record
takes the verdict MANUAL(PROGRAM), goes LEAVING with a gate order to MANUAL, PROGRAM_FAULT is raised with its serial and its program start, the
jackets and the other records stay as they are, and a jacket pass follows. The line, the tables and the verification fields are kept by either. With no eligible jacket, or no eligible record, the pass changes nothing, and neither does
any pass while the line is STOPPED or HOLDING. -/
def Obligations.RecordPassAssigns : Prop :=
  let given (c d : Controller) (r : Record) (n : JacketNo) : Prop :=
    (∃ r', d.recordAt r.slot = some r' ∧ r.SameIdentity r' ∧ r'.state = .routed ∧ r'.jacket = some n ∧ r'.attempts = r.attempts) ∧
    d.jacket n = { c.jacket n with
      state := .awaiting, awaited := some r.serial, slot := some r.slot, programStart := r.spec.programStart } ∧
    (∀ m : JacketNo, m ≠ n → d.jacket m = c.jacket m) ∧ d.line = c.line ∧ d.tables = c.tables ∧ d.verification = c.verification ∧
    (∀ x ∈ c.records, x.slot ≠ r.slot → x ∈ d.records) ∧ d.Ordered r.slot r.serial (.gate (.jacket n))
  let diverted (c d : Controller) (r : Record) : Prop :=
    (∃ r', d.recordAt r.slot = some r' ∧ r.SameIdentity r' ∧ r'.verdict = some (.manual .program) ∧ r'.state = .leaving ∧
      r'.lastResult = r.lastResult) ∧
    d.Ordered r.slot r.serial (.gate .manual) ∧ d.Reported .programFault r.serial r.spec.programStart ∧ d.jackets = c.jackets ∧
    d.line = c.line ∧ d.tables = c.tables ∧ d.verification = c.verification ∧ ∀ x ∈ c.records, x.slot ≠ r.slot → x ∈ d.records
  (∀ (t : Tables) (p : Nat),
    let b (i : Nat) : Block := t.blockAt (p + i)
    t.chainOk p = true ↔
      ∃ k, k < 12 ∧ p + k < 96 ∧ (∀ i < k, (b i).chain = true) ∧ (b k).chain = false ∧ (b 0).kind = .zero ∧
        (∃ i ≤ k, ((b i).kind = .hold ∧ (b i).reading = true) ∧
          ∀ j ≤ k, (b j).kind = .hold → (b j).reading = true → j = i) ∧
        (b k).kind = .vent ∧ ∀ i ≤ k, (b i).fieldsOk = true) ∧
  (∀ (c : Controller) (n : JacketNo) (r : Record), c.eligible n r = true ↔
    (c.jacket n).state = .idle ∧ c.jacketSize n = some r.spec.size ∧ (c.verif n).count < 3 ∧
      ((c.verif n).verified = true ∨ r.spec.reference ≠ none) ∧ r.countedInvalids < 2) ∧
  (∀ c : Controller, c.line.state = .stopped ∨ c.line.state = .holding →
    (∀ slot, c.recordPass slot = c) ∧ ∀ n, c.jacketPass n = c) ∧
  (∀ (c : Controller) (r : Record), c.RegisterSound → c.recordAt r.slot = some r → r.state = .waiting →
    r.releasePending = false → c.line.state = .running ∨ c.line.state = .stopping →
    let d := c.recordPass r.slot
    let lowest (n : JacketNo) : Prop := c.eligible n r = true ∧ ∀ m : JacketNo, m.val < n.val → c.eligible m r = false
    let chosen (n : JacketNo) : Prop :=
      if r.spec.reference = none then lowest n
      else
        (c.eligible n r = true ∧ (c.verif n).verified = false ∧
          ∀ m : JacketNo, m.val < n.val → c.eligible m r = true → (c.verif m).verified = true) ∨
        ((∀ m : JacketNo, c.eligible m r = true → (c.verif m).verified = true) ∧ lowest n)
    ((∀ n : JacketNo, c.eligible n r = false) → d = c) ∧
    (∀ n : JacketNo, chosen n →
      (c.jacketFor r = some n) ∧
      (c.tables.chainOk r.spec.programStart = true → given c d r n) ∧
      (c.tables.chainOk r.spec.programStart = false → ∃ p : Controller, diverted c p r ∧ d = p.jacketPass n))) ∧
  (∀ (c : Controller) (n : JacketNo), c.RegisterSound → c.line.state = .running ∨ c.line.state = .stopping →
    let turnedDown (x : Record) : Prop := x.state = .waiting → x.releasePending = false → c.eligible n x = false
    ((∀ x ∈ c.records, turnedDown x) → c.jacketPass n = c) ∧
    (∀ (older younger : List Record) (r : Record), c.records = older ++ r :: younger → (∀ x ∈ older, turnedDown x) →
      r.state = .waiting → r.releasePending = false → c.eligible n r = true →
      (c.tables.chainOk r.spec.programStart = true → given c (c.jacketPass n) r n) ∧
      (c.tables.chainOk r.spec.programStart = false → ∃ p : Controller, diverted c p r ∧ c.jacketPass n = p.jacketPass n)))

/-- JACKET_ARRIVAL of the awaited serial while the line is RUNNING or STOPPING: the record is TESTING with one more attempt, and the jacket, which
holds the cylinder, runs the first block of its program with its readings cleared. While the line is HOLDING the jacket is HELD_VENTED and no
attempt is counted. Another serial faults the jacket with MISROUTE and the serial it reported, holds the record it awaited as
MANUAL_HELD(MISROUTE), and raises JACKET_FAULT. The record that carries that other serial is held as MANUAL_HELD(MISROUTE) too, in ADMITTED,
WEIGHED, WAITING, ROUTED, STAMPING, SCRAPPING and LEAVING; the jacket that awaited it while ROUTED is freed, its other fields as
they were (log entry 22, the model's reading), and has its jacket pass; in TESTING,
UNLOADING and MANUAL_HELD, or with its release pending, it is left as it stands. At a jacket that awaits nothing the report is stray. -/
def Obligations.ArrivalsAtAJacket : Prop :=
  (∀ (s : State) (h : Header) (p : List Byte) (serial : Serial) (n : JacketNo) (size : SizeClass) (r : Record),
     s.part.Hears h p.length → s.part.roleAt h.source.toNat = .jacket n size → readSerial p = some serial →
     s.part.RegisterSound → (s.part.jacket n).state = .awaiting → (s.part.jacket n).awaited = some serial →
     (s.part.jacket n).slot = some r.slot → s.part.recordAt r.slot = some r → r.releasePending = false →
     s.part.line.state = .running ∨ s.part.line.state = .stopping →
     (s.part.tables.blockAt (s.part.jacket n).programStart).kind = .zero →
     ∃ (t : Controller) (r' : Record), exec (.jacketArrival h p) s = .next (s.withPart t) ∧
       t.recordAt r.slot = some r' ∧ r'.state = .testing ∧ r'.attempts = min 255 (r.attempts + 1) ∧ r'.owedOrders = [] ∧
       (t.jacket n).state = .running .zero ∧ (t.jacket n).loaded = some serial ∧ (t.jacket n).awaited = none ∧
       (t.jacket n).currentBlock = (s.part.jacket n).programStart ∧ (t.jacket n).elapsed = 0 ∧
       (t.jacket n).sampleAge = 0 ∧ (t.jacket n).zero = none ∧ (t.jacket n).hold = none ∧ (t.jacket n).vent = none ∧
       (t.jacket n).earlyEnd = none) ∧
  (∀ (s : State) (h : Header) (p : List Byte) (serial : Serial) (n : JacketNo) (size : SizeClass) (r : Record),
     s.part.Hears h p.length → s.part.roleAt h.source.toNat = .jacket n size → readSerial p = some serial →
     s.part.RegisterSound → (s.part.jacket n).state = .awaiting → (s.part.jacket n).awaited = some serial →
     (s.part.jacket n).slot = some r.slot → s.part.recordAt r.slot = some r → r.releasePending = false →
     s.part.line.state = .holding →
     ∃ (t : Controller) (r' : Record), exec (.jacketArrival h p) s = .next (s.withPart t) ∧
       t.recordAt r.slot = some r' ∧ r'.state = .testing ∧ r'.attempts = r.attempts ∧ r'.owedOrders = [] ∧
       (t.jacket n).state = .heldVented ∧ (t.jacket n).loaded = some serial ∧ (t.jacket n).awaited = none ∧
       (t.jacket n).slot = some r.slot) ∧
  (∀ (s : State) (h : Header) (p : List Byte) (serial : Serial) (n : JacketNo) (size : SizeClass),
     s.part.Hears h p.length → s.part.roleAt h.source.toNat = .jacket n size → readSerial p = some serial →
     (∀ r : Record, s.part.RegisterSound → (s.part.jacket n).state = .awaiting → (s.part.jacket n).awaited ≠ some serial →
       (s.part.jacket n).slot = some r.slot → s.part.recordAt r.slot = some r → r.releasePending = false →
       r.state ≠ .manualHeld →
       ∃ (t : Controller) (r' : Record), exec (.jacketArrival h p) s = .next (s.withPart t) ∧
         t.recordAt r.slot = some r' ∧ r'.state = .manualHeld ∧ r'.heldCause = some .misroute ∧
         (t.jacket n).state = .fault .misroute ∧ (t.jacket n).loaded = some serial ∧ (t.jacket n).awaited = none ∧
         (t.jacket n).slot = none ∧ t.Reported .jacketFault n.val 0) ∧
     (∀ r x : Record, s.part.RegisterSound → (s.part.jacket n).state = .awaiting → (s.part.jacket n).awaited ≠ some serial →
       (s.part.jacket n).slot = some r.slot → s.part.recordAt r.slot = some r → r.releasePending = false → r.state = .routed →
       s.part.recordOf serial = some x → x.slot ≠ r.slot →
       let believedElsewhere : Prop := x.state = .admitted ∨ x.state = .weighed ∨ x.state = .waiting ∨ x.state = .routed ∨
         x.state = .stamping ∨ x.state = .scrapping ∨ x.state = .leaving
       let asItStood (t : Controller) (x' : Record) : Prop := t.recordAt x.slot = some x' ∧ x.SameIdentity x' ∧
         x'.state = x.state ∧ x'.heldCause = x.heldCause ∧ x'.jacket = x.jacket
       (believedElsewhere → x.releasePending = false →
         ∃ t : Controller, exec (.jacketArrival h p) s = .next (s.withPart t) ∧ t.Held x .misroute ∧ t.Held r .misroute ∧
           (t.jacket n).state = .fault .misroute ∧ (t.jacket n).loaded = some serial ∧ t.Reported .jacketFault n.val 0 ∧
           ∀ m : JacketNo, m ≠ n → x.state = .routed → x.jacket = some m → (s.part.jacket m).state = .awaiting →
             (t.jacket m).awaited ≠ some serial ∧
             (s.part.waitingQueue = [] ∨ (s.part.line.state ≠ .running ∧ s.part.line.state ≠ .stopping) →
               (t.jacket m).state = .idle ∧ (t.jacket m).awaited = none ∧ (t.jacket m).slot = none)) ∧
       (∀ m : JacketNo, m ≠ n → x.state = .routed → x.releasePending = false → x.jacket = some m →
         (s.part.jacket m).state = .awaiting →
         ∃ u : Controller, s.part.Freed u m ∧ u.Held x .misroute ∧ u.Held r .misroute ∧
           exec (.jacketArrival h p) s = .next (s.withPart
             (((u.jacketPass m).updJacket n fun j =>
               { j with state := .fault .misroute, loaded := some serial, awaited := none, slot := none }).raise
                 .jacketFault n.val 0))) ∧
       (¬believedElsewhere → x.releasePending = false →
         ∃ (t : Controller) (x' : Record), exec (.jacketArrival h p) s = .next (s.withPart t) ∧ asItStood t x') ∧
       (x.releasePending = true →
         ∃ t : Controller, exec (.jacketArrival h p) s = .next (s.withPart t) ∧
           ∀ x', t.recordAt x.slot = some x' → asItStood t x')) ∧
     ((s.part.jacket n).state ≠ .awaiting →
       ∃ t : Controller, exec (.jacketArrival h p) s = .next (s.withPart t) ∧ t.records = s.part.records ∧
         t.jackets = s.part.jackets ∧ t.Reported .strayReport serial (6 * 16 + 2)))

/-! ### Test programs -/

/-- JACKET_SAMPLE above the overpressure limit at a RUNNING jacket: the program ends early with OVERPRESSURE, the jacket has made a VENT and is
RECOVERING(EARLY) with its readings kept, the sample is not taken by the block, and OVERPRESSURE is raised. In RECOVERING no sample is compared
with the limit: one above the zero threshold only refreshes the sample age. -/
def Obligations.OverpressureEndsProgram : Prop :=
  ∀ (s : State) (h : Header) (p : List Byte) (x : Sample) (n : JacketNo) (size : SizeClass),
    s.part.Hears h p.length → s.part.roleAt h.source.toNat = .jacket n size → readSample p = some x →
    (∀ k, (s.part.jacket n).state = .running k →
      ((s.part.servedSpec n).ptest * (s.part.servedSpec n).overpressure + 500) / 1000 < x.pressure →
      ∃ t : Controller, exec (.jacketSample h p) s = .next (s.withPart t) ∧ (t.jacket n).state = .recovering .early ∧
        (t.jacket n).earlyEnd = some .overpressure ∧ (t.jacket n).elapsed = 0 ∧ (t.jacket n).sampleAge = 0 ∧
        (t.jacket n).acc = .clear ∧ (t.jacket n).zero = (s.part.jacket n).zero ∧
        (t.jacket n).hold = (s.part.jacket n).hold ∧ (t.jacket n).vent = (s.part.jacket n).vent ∧
        (t.jacket n).currentBlock = (s.part.jacket n).currentBlock ∧
        (t.jacket n).recordsCompleted = (s.part.jacket n).recordsCompleted ∧
        (t.jacket n).lastMeans = (s.part.jacket n).lastMeans ∧ (t.jacket n).settleStart = (s.part.jacket n).settleStart ∧
        (t.jacket n).firstPressure = (s.part.jacket n).firstPressure ∧
        t.Commanded n .vent ∧ t.Reported .overpressure n.val 0) ∧
    (∀ reason, (s.part.jacket n).state = .recovering reason → s.part.line.items.zeroThreshold < x.pressure →
      exec (.jacketSample h p) s = .next (s.withPart
        ((s.part.placeForward ({ header := h, kind := 5, payload := p } : Frame).wire).updJacket n
          fun j => { j with sampleAge := 0 })))

/-- What a JACKET_SAMPLE at or below the overpressure limit does in each kind of accumulating block while it completes no record of samples: a HOLD
adds its three values to the sums; a ZERO adds a low one and clears the sums at any other; a VENT adds it once its settle start is present, which
the first low one sets. A DWELL only refreshes the sample age, and a jacket that is neither RUNNING nor RECOVERING ignores it. The means of a
record of S samples are the sums divided by S, rounded half up, and they do not leave 0 to 65,535; a completed record settles when the duration
has passed since the settle start and its level mean lies within the band of the last record's. The sample that completes a record counts it, and
the first record of the reading HOLD gives the first pressure mean. A settled record is handed to the block, with the sums and the last means as
they stood (log entry 18, the model's reading). One that has not settled becomes the last record, and the sums are cleared; if it is the block's
Mth (M is 64 for a field of 0), the program ends early with UNSTABLE instead. -/
def Obligations.RecordsOfSamples : Prop :=
  (∀ (s : State) (h : Header) (p : List Byte) (x : Sample) (n : JacketNo) (size : SizeClass),
     s.part.Hears h p.length → s.part.roleAt h.source.toNat = .jacket n size → readSample p = some x →
     let j := s.part.jacket n
     let b := s.part.currentBlock n
     let low := x.pressure ≤ s.part.line.items.zeroThreshold
     let summed : Accumulator :=
       { level := j.acc.level + x.level, pressure := j.acc.pressure + x.pressure,
         temperature := j.acc.temperature + x.temperature, samples := j.acc.samples + 1 }
     let leaves (j' : Jacket) : Prop :=
       ∃ t : Controller, exec (.jacketSample h p) s = .next (s.withPart t) ∧ t.jacket n = j' ∧
         (∀ m : JacketNo, m ≠ n → t.jacket m = s.part.jacket m) ∧ t.ring.queue = s.part.ring.queue ∧
         t.records = s.part.records ∧ t.verification = s.part.verification ∧ t.notices = s.part.notices
     (∀ k, j.state = .running k → x.pressure ≤ (s.part.servedSpec n).pressureLimit →
       (j.acc.samples + 1 < b.samples →
         (b.kind = .hold → leaves { j with sampleAge := 0, acc := summed }) ∧
         (b.kind = .zero → low → leaves { j with sampleAge := 0, acc := summed }) ∧
         (b.kind = .vent → j.settleStart ≠ none → leaves { j with sampleAge := 0, acc := summed }) ∧
         (b.kind = .vent → j.settleStart = none → low →
           leaves { j with sampleAge := 0, settleStart := some j.elapsed, acc := summed })) ∧
       (b.kind = .zero → ¬low → leaves { j with sampleAge := 0, acc := .clear }) ∧
       (b.kind = .vent → j.settleStart = none → ¬low → leaves { j with sampleAge := 0 }) ∧
       (b.kind = .dwell → leaves { j with sampleAge := 0 })) ∧
     (j.state.pressing = false → leaves j) ∧
     (let m := recordMeans summed b.samples
      let most := if b.maxRecords = 0 then 64 else b.maxRecords
      let begun : Jacket :=
        { j with sampleAge := 0
                 settleStart := if b.kind = .vent ∧ j.settleStart = none then some j.elapsed else j.settleStart }
      let counted : Jacket :=
        { begun with
          acc := summed, recordsCompleted := j.recordsCompleted + 1
          firstPressure :=
            if b.kind = .hold ∧ b.reading = true ∧ j.recordsCompleted = 0 then some m.pressure else j.firstPressure }
      ∀ k, j.state = .running k → x.pressure ≤ (s.part.servedSpec n).pressureLimit → b.samples ≤ j.acc.samples + 1 →
        b.kind = .hold ∨ (b.kind = .zero ∧ low) ∨ (b.kind = .vent ∧ (j.settleStart ≠ none ∨ low)) →
        (begun.settled b m = false → j.recordsCompleted + 1 < most →
          leaves { counted with acc := .clear, lastMeans := some m }) ∧
        (begun.settled b m = false → most ≤ j.recordsCompleted + 1 →
          ∃ t : Controller, exec (.jacketSample h p) s = .next (s.withPart t) ∧ (t.jacket n).state = .recovering .early ∧
            (t.jacket n).earlyEnd = some .unstable ∧ (t.jacket n).recordsCompleted = j.recordsCompleted + 1 ∧
            (t.jacket n).firstPressure = counted.firstPressure ∧ (t.jacket n).elapsed = 0 ∧ (t.jacket n).acc = .clear ∧
            t.Commanded n .vent) ∧
        (begun.settled b m = true →
          exec (.jacketSample h p) s = .next (s.withPart
            (((s.part.placeForward ({ header := h, kind := 5, payload := p } : Frame).wire).updJacket n
              fun _ => counted).settle n b m))))) ∧
  ((∀ (a : Accumulator) (samples : Nat), 1 ≤ samples → samples ≤ 16 →
     recordMeans a samples =
       { level := (a.level + samples / 2) / samples, pressure := (a.pressure + samples / 2) / samples,
         temperature := (a.temperature + samples / 2) / samples } ∧
     (a.level ≤ samples * 65535 → (recordMeans a samples).level ≤ 65535) ∧
     (a.pressure ≤ samples * 65535 → (recordMeans a samples).pressure ≤ 65535) ∧
     (a.temperature ≤ samples * 65535 → (recordMeans a samples).temperature ≤ 65535)) ∧
   ∀ (j : Jacket) (b : Block) (m : Means),
     j.settled b m = true ↔
       ∃ start last, j.settleStart = some start ∧ j.lastMeans = some last ∧ b.duration * 100 ≤ j.elapsed - start ∧
         m.level ≤ last.level + b.band ∧ last.level ≤ m.level + b.band)

/-- A RAMP makes a SET on entry, with the target in permille of Ptest rounded half up, saturated at 65,535, and the block's rate; its threshold is
the target as computed less the window allowance. Below the threshold a sample only refreshes the sample age; at or above it the next block
begins. -/
def Obligations.RampBlock : Prop :=
  (∀ (c : Controller) (n : JacketNo), (c.currentBlock n).kind = .ramp →
    (c.enterBlock n).Commanded n
      (.set (min 65535 (((c.servedSpec n).ptest * (c.currentBlock n).target + 500) / 1000)) (c.currentBlock n).rate) ∧
    ((c.enterBlock n).jacket n).state = .running .ramp) ∧
  ∀ (s : State) (h : Header) (p : List Byte) (x : Sample) (n : JacketNo) (size : SizeClass),
    s.part.Hears h p.length → s.part.roleAt h.source.toNat = .jacket n size → readSample p = some x →
    (s.part.jacket n).state = .running .ramp → (s.part.currentBlock n).kind = .ramp →
    x.pressure ≤ (s.part.servedSpec n).pressureLimit →
    let threshold := ((s.part.servedSpec n).ptest * (s.part.currentBlock n).target + 500) / 1000 -
      ((s.part.servedSpec n).ptest * (s.part.servedSpec n).window + 500) / 1000
    (x.pressure < threshold → ∃ t : Controller, exec (.jacketSample h p) s = .next (s.withPart t) ∧
      t.jacket n = { s.part.jacket n with sampleAge := 0 } ∧ t.ring.queue = s.part.ring.queue) ∧
    (threshold ≤ x.pressure → (s.part.currentBlock n).chain = true →
      (s.part.tables.blockAt ((s.part.jacket n).currentBlock + 1)).kind = .hold →
      ∃ t : Controller, exec (.jacketSample h p) s = .next (s.withPart t) ∧
        t.jacket n = { s.part.jacket n with
          sampleAge := 0, state := .running .hold, currentBlock := (s.part.jacket n).currentBlock + 1, elapsed := 0,
          acc := .clear, recordsCompleted := 0, lastMeans := none, settleStart := some 0 })

/-- The readings a settled record gives in a block that leads to another: Z and Tz in a ZERO; T_raw and P_read in the reading HOLD, or the early end
LEAK when the pressure has fallen by more than the allowance; none in another HOLD or in an earlier VENT. But for the LEAK the block completes: the
current block rises by 1 and the jacket enters the next block. On entry the jacket is RUNNING of the block's kind, its time, its accumulator, its
records and its last means begin afresh, the settle start is 0 in a ZERO or HOLD, absent in a VENT or DWELL and as it stood in a RAMP (log entry 22,
the model's reading); a VENT makes a VENT, a RAMP its SET, the others no command; a DWELL of duration 0 leads to the block behind it. In the last VENT
it gives E_perm, its level mean less Z or 0, and Tv, its temperature mean, and the evaluation of the jacket's cylinder follows (EvaluationUpdates says
what it does). -/
def Obligations.SettledRecordGivesReadings : Prop :=
  (∀ (c : Controller) (n : JacketNo) (m : Means), (c.currentBlock n).chain = true →
    let d := c.settle n (c.currentBlock n) m
    ((c.currentBlock n).kind = .zero → (d.jacket n).zero = some ⟨m.level, m.temperature⟩) ∧
    ((c.currentBlock n).kind = .hold → (c.currentBlock n).reading = true →
      (d.jacket n).hold = some ⟨m.level - firstOf (c.jacket n).zero, m.pressure⟩ ∧
      (∀ a, (c.currentBlock n).leak = some a →
        (m.pressure + a < ((c.jacket n).firstPressure).getD 0 →
          (d.jacket n).earlyEnd = some .leak ∧ (d.jacket n).state = .recovering .early) ∧
        (((c.jacket n).firstPressure).getD 0 ≤ m.pressure + a →
          (d.jacket n).earlyEnd = (c.jacket n).earlyEnd ∧ (d.jacket n).state.isRunning = true))) ∧
    ((c.currentBlock n).kind = .hold → (c.currentBlock n).reading = false → (d.jacket n).hold = (c.jacket n).hold) ∧
    ((c.currentBlock n).kind = .vent → (d.jacket n).vent = (c.jacket n).vent)) ∧
  (∀ (c : Controller) (n : JacketNo) (m : Means), (c.currentBlock n).chain = true →
    let b := c.currentBlock n
    let next := (c.jacket n).currentBlock + 1
    let leaked : Prop := ∃ a, b.leak = some a ∧ m.pressure + a < ((c.jacket n).firstPressure).getD 0
    (b.kind = .zero → c.settle n b m =
      (c.updJacket n fun j => { j with zero := some ⟨m.level, m.temperature⟩, currentBlock := next }).enterBlock n) ∧
    (b.kind = .hold → b.reading = true → ¬leaked → c.settle n b m =
      (c.updJacket n fun j =>
        { j with hold := some ⟨m.level - firstOf j.zero, m.pressure⟩, currentBlock := next }).enterBlock n) ∧
    (b.kind = .vent ∨ (b.kind = .hold ∧ b.reading = false) → c.settle n b m =
      (c.updJacket n fun j => { j with currentBlock := next }).enterBlock n)) ∧
  (∀ (c : Controller) (n : JacketNo),
    let d := c.enterBlock n
    let b := c.currentBlock n
    let following := c.tables.blockAt ((c.jacket n).currentBlock + 1)
    let passes (x : Block) : Prop := x.kind = .dwell ∧ x.duration = 0 ∧ x.chain = true
    let enters (index : Nat) (x : Block) : Prop :=
      d.jacket n = { c.jacket n with
        state := .running x.kind, currentBlock := index, elapsed := 0, acc := .clear, recordsCompleted := 0, lastMeans := none
        settleStart :=
          if x.kind = .zero ∨ x.kind = .hold then some 0 else if passes b ∨ x.kind ≠ .ramp then none else (c.jacket n).settleStart
        owedCommand := (d.jacket n).owedCommand } ∧
      (x.kind = .vent → d.Commanded n .vent) ∧
      (x.kind = .ramp → d.Commanded n (.set (min 65535 (((c.servedSpec n).ptest * x.target + 500) / 1000)) x.rate)) ∧
      (x.kind ≠ .vent → x.kind ≠ .ramp →
        (d.jacket n).owedCommand = (c.jacket n).owedCommand ∧ d.ring = c.ring ∧ d.records = c.records)
    (¬passes b → enters (c.jacket n).currentBlock b) ∧
    (passes b → ¬passes following → enters ((c.jacket n).currentBlock + 1) following)) ∧
  ∀ (c : Controller) (n : JacketNo) (m : Means), (c.currentBlock n).kind = .vent → (c.currentBlock n).chain = false →
    let z : Nat := match (c.jacket n).zero with
      | some reading => reading.first
      | none => 0
    c.settle n (c.currentBlock n) m =
      (c.updJacket n fun j => { j with vent := some { first := m.level - z, second := m.temperature } }).evaluate n

/-- The first low sample in RECOVERING: after a hold the jacket is HELD_VENTED, or starts its program again if restart pending is set; after an early
end the evaluation is made (EvaluationUpdates says what it does); after an ABORT it has made an UNLOAD and is UNLOADING with REQUEUE, its record
UNLOADING; after RESTART it is DISABLED. -/
def Obligations.LowSampleEndsRecovery : Prop :=
  ∀ (s : State) (h : Header) (p : List Byte) (x : Sample) (n : JacketNo) (size : SizeClass),
    s.part.Hears h p.length → s.part.roleAt h.source.toNat = .jacket n size → readSample p = some x →
    x.pressure ≤ s.part.line.items.zeroThreshold →
    ((s.part.jacket n).state = .recovering .hold → (s.part.jacket n).restartPending = false →
      ∃ t : Controller, exec (.jacketSample h p) s = .next (s.withPart t) ∧
        t.jacket n = { s.part.jacket n with sampleAge := 0, state := .heldVented } ∧ t.ring.queue = s.part.ring.queue) ∧
    ((s.part.jacket n).state = .recovering .restart →
      ∃ t : Controller, exec (.jacketSample h p) s = .next (s.withPart t) ∧
        t.jacket n = { s.part.jacket n with
          sampleAge := 0, state := .disabled, awaited := none, loaded := none, slot := none }) ∧
    ((s.part.jacket n).state = .recovering .early →
      exec (.jacketSample h p) s = .next (s.withPart
        (((s.part.placeForward ({ header := h, kind := 5, payload := p } : Frame).wire).updJacket n
          fun j => { j with sampleAge := 0 }).evaluate n))) ∧
    (∀ r : Record, s.part.RegisterSound → (s.part.jacket n).state = .recovering .hold →
      (s.part.jacket n).restartPending = true → (s.part.jacket n).slot = some r.slot → s.part.recordAt r.slot = some r →
      (s.part.tables.blockAt (s.part.jacket n).programStart).kind = .zero →
      ∃ t : Controller, exec (.jacketSample h p) s = .next (s.withPart t) ∧ (t.jacket n).state = .running .zero ∧
        (t.jacket n).currentBlock = (s.part.jacket n).programStart ∧ (t.jacket n).restartPending = false ∧
        t.recordAt r.slot = some { r with attempts := min 255 (r.attempts + 1) }) ∧
    (∀ r : Record, s.part.RegisterSound → (s.part.jacket n).state = .recovering .abort →
      (s.part.jacket n).slot = some r.slot → s.part.recordAt r.slot = some r →
      ∃ t : Controller, exec (.jacketSample h p) s = .next (s.withPart t) ∧ (t.jacket n).state = .unloading ∧
        (t.jacket n).onClear = some .requeue ∧ t.Commanded n .unload ∧
        t.recordAt r.slot = some { r with state := .unloading })

/-- JACKET_CLEAR of an UNLOADING jacket's cylinder: no UNLOAD of it stands any more; with a count below 3 the jacket is emptied and IDLE, its other
fields as they were (log entry 22, the model's reading), with a count of 3 it is in FAULT(SUSPECT) and JACKET_FAULT is raised. Then with ROUTE the
record takes the route of its verdict (RouteAfterVerdict); with REQUEUE it is WAITING without a jacket and has its record pass, by which it may be
assigned again unless the line is HOLDING. Then the jacket has its jacket pass, by which it may be AWAITING its next record (RecordPassAssigns says
what the passes do). A jacket in FAULT forgets the cylinder and does nothing else. Any other clear is stray. -/
def Obligations.ClearEndsUnload : Prop :=
  ∀ (s : State) (h : Header) (p : List Byte) (serial : Serial) (n : JacketNo) (size : SizeClass),
    s.part.Hears h p.length → s.part.roleAt h.source.toNat = .jacket n size → readSerial p = some serial →
    (∀ r : Record, s.part.RegisterSound → (s.part.jacket n).state = .unloading → (s.part.jacket n).loaded = some serial →
      (s.part.jacket n).slot = some r.slot → s.part.recordAt r.slot = some r → r.releasePending = false →
      r.state = .unloading →
      (∃ (u : Controller) (x : Record),
        ((s.part.verif n).count < 3 → s.part.Freed u n) ∧
        ((s.part.verif n).count = 3 → (u.jacket n).state = .fault .suspect ∧ (u.jacket n).loaded = none ∧
          (u.jacket n).slot = none ∧ u.RegisterSound ∧ u.Reported .jacketFault n.val 4) ∧
        (u.jacket n).owedCommand ≠ some .unload ∧
        (∀ e ∈ u.ring.queue, e.owner = .jacket n → e.body ≠ .command n .unload) ∧
        u.recordAt r.slot = some x ∧ r.SameIdentity x ∧ x.releasePending = false ∧ x.state = .unloading ∧
        x.verdict = r.verdict ∧ x.verdictDate = r.verdictDate ∧ x.countedInvalids = r.countedInvalids ∧
        x.attempts = r.attempts ∧
        ((s.part.jacket n).onClear = some .route →
          exec (.jacketClear h p) s = .next (s.withPart ((u.route r.slot).jacketPass n))) ∧
        ((s.part.jacket n).onClear = some .requeue →
          exec (.jacketClear h p) s = .next (s.withPart
            (((u.updRecord r.slot fun x => { x with state := .waiting, jacket := none }).recordPass r.slot).jacketPass n)))) ∧
      ((s.part.jacket n).onClear = some .route →
        let goes (t : Controller) (state : RecordState) (orders : List Order) : Prop :=
          ∃ r', t.recordAt r.slot = some r' ∧ r.SameIdentity r' ∧ r'.state = state ∧ r'.verdict = r.verdict ∧
            ∀ o ∈ orders, t.Ordered r.slot r.serial o
        ∃ t : Controller, exec (.jacketClear h p) s = .next (s.withPart t) ∧ (t.jacket n).loaded = none ∧
          (∀ k, r.verdict = some (.fail k) → r.spec.reference = none → r.returnCondemned = some true →
            goes t .stamping [.gate .stamp, .stamp (condemnMarks s.part.line.items.plantCode)]) ∧
          (∀ k, r.verdict = some (.fail k) → r.spec.reference ≠ none ∨ r.returnCondemned ≠ some true →
            goes t .scrapping [.gate .scrap, .scrap]) ∧
          (r.verdict = some (.manual .secondInvalid) → goes t .leaving [.gate .manual]) ∧
          (∀ k, r.verdict = some (.reference k) → goes t .leaving [.gate .reference]) ∧
          ((s.part.verif n).count < 3 → (t.jacket n).state = .idle ∨ (t.jacket n).state = .awaiting) ∧
          ((s.part.verif n).count = 3 → (t.jacket n).state = .fault .suspect ∧ t.Reported .jacketFault n.val 4) ∧
          (∀ d, r.verdict = some .pass → r.verdictDate = some d →
            ∃ r', t.recordAt r.slot = some r' ∧ r'.state = .stamping ∧ t.Ordered r.slot r.serial (.gate .stamp) ∧
              t.Ordered r.slot r.serial (.stamp (passMarks s.part.line.items.plantCode d r.spec.suffix)))) ∧
      ((s.part.jacket n).onClear = some .requeue → s.part.line.state = .holding →
        ∃ (t : Controller) (r' : Record), exec (.jacketClear h p) s = .next (s.withPart t) ∧
          t.recordAt r.slot = some r' ∧ r.SameIdentity r' ∧ r'.state = .waiting ∧ r'.jacket = none ∧
          r'.countedInvalids = r.countedInvalids ∧ r'.attempts = r.attempts ∧ (t.jacket n).loaded = none ∧
          (t.jacket n).slot = none ∧ ((s.part.verif n).count < 3 → (t.jacket n).state = .idle) ∧
          ((s.part.verif n).count = 3 → (t.jacket n).state = .fault .suspect ∧ t.Reported .jacketFault n.val 4))) ∧
    ((s.part.jacket n).state.isFault = true → (s.part.jacket n).loaded = some serial →
      exec (.jacketClear h p) s = .next (s.withPart
        ((s.part.placeForward ({ header := h, kind := 6, payload := p } : Frame).wire).updJacket n
          fun j => { j with loaded := none }))) ∧
    ((s.part.jacket n).loaded ≠ some serial ∨
        ((s.part.jacket n).state ≠ .unloading ∧ (s.part.jacket n).state.isFault = false) →
      ∃ t : Controller, exec (.jacketClear h p) s = .next (s.withPart t) ∧ t.records = s.part.records ∧
        t.jackets = s.part.jackets ∧ t.Reported .strayReport serial (6 * 16 + 2))

/-- BLOCK_TIME_LIMIT of a RUNNING jacket whose elapsed time has reached 2 to the time exponent, in seconds, ends the program early with TIMEOUT;
otherwise it has no effect (log entry 4, the model's choice). DWELL_END of a jacket whose DWELL has lasted its duration completes the block, so
that the next one begins; otherwise it has no effect (log entry 4, the model's choice). SAMPLE_AGE_LIMIT and VENT_LIMIT fault the jacket with
SILENT and VENT_TIMEOUT: it serves no record and has made a VENT, its record is MANUAL_HELD(JACKET_FAULT), and MANUAL_DIVERT and JACKET_FAULT are
raised. Before their limit they have no effect (log entry 4, the model's choice). -/
def Obligations.ExpiriesOfAJacket : Prop :=
  (∀ (s : State) (n : JacketNo),
     (∀ k, (s.part.jacket n).state = .running k → 2 ^ (s.part.currentBlock n).timeExp * 1000 ≤ (s.part.jacket n).elapsed →
       ∃ t : Controller, exec (.blockTimeLimit n) s = .next (s.withPart t) ∧ (t.jacket n).state = .recovering .early ∧
         (t.jacket n).earlyEnd = some .timeout ∧ (t.jacket n).elapsed = 0 ∧ (t.jacket n).acc = .clear ∧
         t.Commanded n .vent) ∧
     ((s.part.jacket n).state.isRunning = false ∨
         (s.part.jacket n).elapsed < 2 ^ (s.part.currentBlock n).timeExp * 1000 →
       exec (.blockTimeLimit n) s = .next s)) ∧
  (∀ (s : State) (n : JacketNo),
     ((s.part.jacket n).state = .running .dwell → (s.part.currentBlock n).duration * 100 ≤ (s.part.jacket n).elapsed →
       (s.part.currentBlock n).chain = true →
       (s.part.tables.blockAt ((s.part.jacket n).currentBlock + 1)).kind = .zero →
       ∃ t : Controller, exec (.dwellEnd n) s = .next (s.withPart t) ∧
         t.jacket n = { s.part.jacket n with
           state := .running .zero, currentBlock := (s.part.jacket n).currentBlock + 1, elapsed := 0, acc := .clear,
           recordsCompleted := 0, lastMeans := none, settleStart := some 0 } ∧
         t.ring.queue = s.part.ring.queue) ∧
     ((s.part.jacket n).state ≠ .running .dwell ∨
         (s.part.jacket n).elapsed < (s.part.currentBlock n).duration * 100 →
       exec (.dwellEnd n) s = .next s)) ∧
  (∀ (s : State) (n : JacketNo),
      let faults (i : Instr) (cause : FaultCause) : Prop :=
        ∀ r : Record, s.part.RegisterSound → (s.part.jacket n).slot = some r.slot → s.part.recordAt r.slot = some r →
          r.releasePending = false → r.state ≠ .manualHeld →
          ∃ (t : Controller) (r' : Record), exec i s = .next (s.withPart t) ∧ (t.jacket n).state = .fault cause ∧
            (t.jacket n).slot = none ∧ (t.jacket n).loaded = (s.part.jacket n).loaded ∧ t.Commanded n .vent ∧
            t.recordAt r.slot = some r' ∧ r'.state = .manualHeld ∧ r'.heldCause = some .jacketFault ∧
            t.verification = s.part.verification ∧ t.Reported .manualDivert r.serial 2 ∧
            t.Reported .jacketFault n.val cause.code
      ((s.part.jacket n).state.pressing = true → s.part.line.items.sampleAgeLimit ≤ (s.part.jacket n).sampleAge →
        faults (.sampleAgeLimit n) .silent) ∧
      ((s.part.jacket n).state.pressing = false ∨ (s.part.jacket n).sampleAge < s.part.line.items.sampleAgeLimit →
        exec (.sampleAgeLimit n) s = .next s) ∧
      (∀ reason, (s.part.jacket n).state = .recovering reason → 120000 ≤ (s.part.jacket n).elapsed →
        faults (.ventLimit n) .ventTimeout) ∧
      ((∀ reason, (s.part.jacket n).state ≠ .recovering reason) ∨ (s.part.jacket n).elapsed < 120000 →
        exec (.ventLimit n) s = .next s))

/-! ### Expansion arithmetic and verdicts -/

/-- The total expansion normalised to Ptest: T is T_raw x Ptest divided by P_read, rounded half up, at most 65,535; when P_read lies within the
window of a type in its ranges, P_read is at least 950 and T is 0 exactly when T_raw is 0. The permanent-to-total ratio R is E_perm x 1000
divided by T, rounded half up, at most 1,000, whatever it is no INVALID, and R of 1,000 fails every ratio limit below 1,000 and no limit of
1,000. The elastic expansion is T less E_perm, or 0. In every result R lies in 0 to 1,000 and T in 0 to 65,535, and R is formed only over a T of
at least 1. -/
def Obligations.ExpansionFigures : Prop :=
  (∀ (e : TypeEntry) (tRaw pRead : Nat),
    normalised e tRaw pRead = min 65535 ((tRaw * e.ptest + pRead / 2) / pRead) ∧
    (1000 ≤ e.ptest → e.window ≤ 50 → windowFails e pRead = false →
      950 ≤ pRead ∧ (normalised e tRaw pRead = 0 ↔ tRaw = 0))) ∧
  (∀ (e : TypeEntry) (ePerm t elastic : Nat), 1 ≤ t →
    expansionRatio ePerm t = min 1000 ((ePerm * 1000 + t / 2) / t) ∧ expansionRatio ePerm t ≤ 1000 ∧
    (1000 < (ePerm * 1000 + t / 2) / t → t < ePerm) ∧ (t < ePerm → expansionRatio ePerm t = 1000) ∧
    (∀ k, judgeFigures e t (expansionRatio ePerm t) elastic ≠ .invalid k) ∧
    (e.reference = none → e.ratioLimit = 1000 → judgeFigures e t (expansionRatio ePerm t) elastic ≠ .fail .permanent) ∧
    (e.reference = none → e.ratioLimit < 1000 → expansionRatio ePerm t = 1000 →
      judgeFigures e t (expansionRatio ePerm t) elastic = .fail .permanent) ∧
    (ePerm ≤ t → elasticExpansion ePerm t + ePerm = t) ∧ (t < ePerm → elasticExpansion ePerm t = 0)) ∧
  ∀ (j : Jacket) (e : TypeEntry) (limit : Nat),
    (formResult j e limit).2.t ≤ 65535 ∧ (formResult j e limit).2.ratio ≤ 1000 ∧
      ((formResult j e limit).2.t = 0 → (formResult j e limit).2.ratio = 0 ∧ (formResult j e limit).2.elastic = 0)

/-- The outcome of an evaluation is the first case that applies, for ordinary types and, from case 8 on, for reference types; the figures are those
it reached, the others 0. -/
def Obligations.EvaluationOutcome : Prop :=
  ∀ (j : Jacket) (e : TypeEntry) (limit : Nat),
    let z := firstOf j.zero
    let tz := secondOf j.zero
    let tRaw := firstOf j.hold
    let pRead := secondOf j.hold
    let ePerm := firstOf j.vent
    let tv := secondOf j.vent
    let t := normalised e tRaw pRead
    let unreached : Figures := { z, t := 0, ePerm, ratio := 0, elastic := 0, pRead }
    let reached : Figures := { z, t, ePerm, ratio := expansionRatio ePerm t, elastic := t - ePerm, pRead }
    let allowance := (e.ptest * e.window + 500) / 1000
    let thermal := tz + limit < tv ∨ tv + limit < tz
    let outside := e.ptest + allowance < pRead ∨ pRead + allowance < e.ptest
    (j.earlyEnd = some .overpressure → formResult j e limit = (.fail .overpressure, unreached)) ∧
    (j.earlyEnd = some .leak → formResult j e limit = (.invalid .leak, unreached)) ∧
    (j.earlyEnd = some .unstable → formResult j e limit = (.invalid .unstable, unreached)) ∧
    (j.earlyEnd = some .timeout → formResult j e limit = (.invalid .timeout, unreached)) ∧
    (j.earlyEnd = none → thermal → formResult j e limit = (.invalid .thermal, unreached)) ∧
    (j.earlyEnd = none → ¬thermal → outside → formResult j e limit = (.invalid .pressureWindow, unreached)) ∧
    (j.earlyEnd = none → ¬thermal → ¬outside → t = 0 → formResult j e limit = (.invalid .noExpansion, unreached)) ∧
    (j.earlyEnd = none → ¬thermal → ¬outside → t ≠ 0 →
      (∀ ref, e.reference = some ref →
        formResult j e limit =
          (.reference (if t ≤ ref.expected + ref.tolerance ∧ ref.expected ≤ t + ref.tolerance then .inTolerance
            else .outOfTolerance), reached)) ∧
      (e.reference = none → e.ratioLimit < expansionRatio ePerm t → formResult j e limit = (.fail .permanent, reached)) ∧
      (e.reference = none → expansionRatio ePerm t ≤ e.ratioLimit →
        (∀ r, e.ree = some r → r < t - ePerm → formResult j e limit = (.fail .elastic, reached)) ∧
        ((∀ r, e.ree = some r → t - ePerm ≤ r) → formResult j e limit = (.pass, reached)))) ∧
    (∀ reference invalids count, decideInstruction (.fail .overpressure) reference invalids count = .unload .route)

/-- What an evaluation does to the record and to the jacket that serves it: the result with its attempt becomes the last result, dated by the plant
date; the counted invalids, the verdict and the jacket's verification follow the outcome; the TEST RESULT is placed or owed. The jacket unloads
with ROUTE, but for a first counted INVALID of an ordinary record: that one is tested again in place, from the first block with one more attempt,
or is left HELD_VENTED with no attempt counted when the line is HOLDING; and with a count that has reached 3 the jacket unloads with REQUEUE. -/
def Obligations.EvaluationUpdates : Prop :=
  (∀ (reference : Bool) (invalids count : Nat),
    decideInstruction .pass reference invalids count = .unload .route ∧
    (∀ k, decideInstruction (.fail k) reference invalids count = .unload .route) ∧
    (∀ k, decideInstruction (.reference k) reference invalids count = .unload .route) ∧
    (∀ k, decideInstruction (.invalid k) true invalids count = .unload .route) ∧
    (∀ k, decideInstruction (.invalid k) false 2 count = .unload .route) ∧
    (∀ k, count < 3 → decideInstruction (.invalid k) false 1 count = .retest) ∧
    (∀ k, decideInstruction (.invalid k) false 1 3 = .unload .requeue)) ∧
  (∀ (c : Controller) (n : JacketNo) (r : Record), c.RegisterSound → (c.jacket n).slot = some r.slot →
      c.recordAt r.slot = some r → r.releasePending = false →
      let formed := formResult (c.jacket n) r.spec c.line.items.thermalLimit
      let result : LastResult := { jacket := n, attempt := r.attempts, outcome := formed.1, figures := formed.2 }
      let d := c.evaluate n
      ∃ r', d.recordAt r.slot = some r' ∧ r'.lastResult = some result ∧ r'.verdictDate = c.line.date ∧
        (r'.resultOwed = true ∨ ∃ e ∈ d.ring.queue, e.owner = .record r.slot ∧ e.body = .testResult r.serial result) ∧
        (formed.1 = .pass → r'.verdict = some .pass ∧ r'.countedInvalids = r.countedInvalids ∧ (d.verif n).count = 0) ∧
        (∀ k, formed.1 = .fail k → r'.verdict = some (.fail k.verdictCause) ∧ r'.countedInvalids = r.countedInvalids ∧
          (d.verif n).count = 0) ∧
        (formed.1 = .reference .inTolerance → r'.verdict = some (.reference .inTolerance) ∧
          d.verif n = { verified := true, date := c.line.date, count := 0 }) ∧
        (formed.1 = .reference .outOfTolerance → r'.verdict = some (.reference .outOfTolerance) ∧
          d.verif n = { verified := false, date := (c.verif n).date, count := 0 } ∧ d.Reported .calibration n.val 11) ∧
        (∀ k, formed.1 = .invalid k →
          d.verif n = { c.verif n with count := min 3 ((c.verif n).count + 1) } ∧
          (r.spec.reference ≠ none → r'.verdict = some (.reference .outOfTolerance) ∧ r'.countedInvalids = r.countedInvalids) ∧
          (r.spec.reference = none → r.countedInvalids = 0 → r'.verdict = r.verdict ∧ r'.countedInvalids = 1) ∧
          (r.spec.reference = none → r.countedInvalids = 1 → r'.countedInvalids = 2 ∧
            r'.verdict = some (if k = .leak then .fail .leak else .manual .secondInvalid))) ∧
        (let unloads (x : OnClear) : Prop :=
           r'.state = .unloading ∧ r'.attempts = r.attempts ∧ (d.jacket n).state = .unloading ∧
             (d.jacket n).onClear = some x ∧ d.Commanded n .unload
         ((∀ k, formed.1 ≠ .invalid k) → unloads .route) ∧
         (∀ k, formed.1 = .invalid k →
           (r.spec.reference ≠ none ∨ r.countedInvalids = 1 → unloads .route) ∧
           (r.spec.reference = none → r.countedInvalids = 0 →
             (2 ≤ (c.verif n).count → unloads .requeue) ∧
             ((c.verif n).count < 2 → c.line.state = .running ∨ c.line.state = .stopping →
               (c.tables.blockAt (c.jacket n).programStart).kind = .zero →
               (d.jacket n).state = .running .zero ∧ (d.jacket n).currentBlock = (c.jacket n).programStart ∧
                 (d.jacket n).zero = none ∧ (d.jacket n).hold = none ∧ (d.jacket n).vent = none ∧
                 (d.jacket n).earlyEnd = none ∧ (d.jacket n).slot = some r.slot ∧ r'.state = r.state ∧
                 r'.attempts = min 255 (r.attempts + 1)) ∧
             ((c.verif n).count < 2 → c.line.state = .holding →
               (d.jacket n).state = .heldVented ∧ (d.jacket n).slot = some r.slot ∧ r'.state = r.state ∧
                 r'.attempts = r.attempts)))))

/-! ### Stamping, scrapping, release -/

/-- The marks: the plant code, a space, the month and the year of the verdict date with a stroke between them, and the suffix; for a FAIL the plant
code, a space and XX. Their counts are 10 or 11, and 7. The route after a verdict: PASS and a condemned cylinder its owner wants back go to the
stamp, other FAILs and every failed reference piece to the scrap cell, MANUAL(SECOND_INVALID) to the manual lane, REFERENCE to the reference
rack. The gate order of a pair is made first: among the record's frames in the queue and then those it owes, it stands ahead of the other order. -/
def Obligations.RouteAfterVerdict : Prop :=
  (∀ (r : Record) (code : List Byte), code.length = 4 →
     (∀ d : Date, r.verdictDate = some d → d.valid = true → r.verdict = some .pass →
       r.marks code = code ++ [0x20, BitVec.ofNat 8 (0x30 + d.month / 10), BitVec.ofNat 8 (0x30 + d.month % 10), 0x2F,
         BitVec.ofNat 8 (0x30 + (d.year - 2000) / 10), BitVec.ofNat 8 (0x30 + (d.year - 2000) % 10)] ++ r.spec.suffix.toList ∧
       (r.spec.suffix = none → (r.marks code).length = 10) ∧ (r.spec.suffix ≠ none → (r.marks code).length = 11)) ∧
     (∀ k, r.verdict = some (.fail k) → r.marks code = code ++ [0x20, 0x58, 0x58] ∧ (r.marks code).length = 7)) ∧
  (∀ (c : Controller) (r : Record), c.RegisterSound → c.recordAt r.slot = some r → r.releasePending = false →
     let d := c.route r.slot
     let goes (state : RecordState) (orders : List Order) : Prop :=
       ∃ r', d.recordAt r.slot = some r' ∧ r.SameIdentity r' ∧ r'.state = state ∧ r'.verdict = r.verdict ∧
         let queued := (d.ring.queue.filter fun e => e.owner == .record r.slot).map QueueEntry.body
         (orders.map (Order.body r.serial)).Sublist (queued ++ r'.owedOrders.map (Order.body r.serial))
     (r.verdict = some .pass → goes .stamping [.gate .stamp, .stamp (r.marks c.line.items.plantCode)]) ∧
     (∀ k, r.verdict = some (.fail k) → r.spec.reference = none → r.returnCondemned = some true →
       goes .stamping [.gate .stamp, .stamp (r.marks c.line.items.plantCode)]) ∧
     (∀ k, r.verdict = some (.fail k) → r.spec.reference ≠ none ∨ r.returnCondemned ≠ some true →
       goes .scrapping [.gate .scrap, .scrap]) ∧
     (r.verdict = some (.manual .secondInvalid) → goes .leaving [.gate .manual]) ∧
     (∀ k, r.verdict = some (.reference k) → goes .leaving [.gate .reference]))

/-- STAMP_REPORT of a STAMPING record: DONE with every character struck sends it to FILL when its verdict is PASS, else to RETURN; any other outcome
holds it with the characters struck and their count, and MANUAL_DIVERT is raised. SCRAP_REPORT of a SCRAPPING record: DONE releases it, at once
when it owes no TEST RESULT, and the last of a STOPPING line makes it STOPPED with LINE_STOPPED raised; REFUSED holds it, and MANUAL_DIVERT is
raised. -/
def Obligations.StampAndScrapReports : Prop :=
  (∀ (s : State) (h : Header) (p : List Byte) (serial : Serial) (outcome struck : Nat) (r : Record),
     s.part.Hears h p.length → s.part.roleAt h.source.toNat = .stamp → readStampReport p = some (serial, outcome, struck) →
     outcome ≤ 1 → struck ≤ 12 → s.part.RegisterSound → s.part.recordOf serial = some r → r.state = .stamping →
     r.releasePending = false →
     let count := (r.marks s.part.line.items.plantCode).length
     ∃ (t : Controller) (r' : Record), exec (.stampReport h p) s = .next (s.withPart t) ∧ t.recordOf serial = some r' ∧
       (outcome = 0 → struck = count → r'.state = .leaving ∧
         t.Ordered r.slot serial (.gate (if r.verdict = some .pass then .fill else .returnLane))) ∧
       (outcome = 1 ∨ struck ≠ count → r'.state = .manualHeld ∧ r'.heldCause = some .stampStopped ∧
         r'.stampProgress = some (struck, count) ∧ t.Reported .manualDivert serial 3)) ∧
  (∀ (s : State) (h : Header) (p : List Byte) (serial : Serial) (outcome : Nat) (r : Record),
     s.part.Hears h p.length → s.part.roleAt h.source.toNat = .scrap → readScrapReport p = some (serial, outcome) →
     s.part.RegisterSound → s.part.recordOf serial = some r → r.state = .scrapping → r.releasePending = false →
     (outcome = 0 → r.resultOwed = false →
       ∃ t : Controller, exec (.scrapReport h p) s = .next (s.withPart t) ∧ t.recordOf serial = none ∧
         (s.part.line.state = .stopping → s.part.records = [r] →
           t.line = { s.part.line with state := .stopped } ∧ t.Reported .lineStopped 0 0) ∧
         (s.part.line.state ≠ .stopping ∨ (∃ x ∈ s.part.records, x.slot ≠ r.slot ∧ x.releasePending = false) →
           t.line = s.part.line)) ∧
     (outcome = 1 →
       ∃ (t : Controller) (r' : Record), exec (.scrapReport h p) s = .next (s.withPart t) ∧ t.recordOf serial = some r' ∧
         r'.state = .manualHeld ∧ r'.heldCause = some .scrapRefused ∧ t.Reported .manualDivert serial 4))

/-- RELEASE of a MANUAL_HELD record: it leaves the list at once when it owes no TEST RESULT, and is marked release pending when it does; the last
record of a STOPPING line makes it STOPPED with LINE_STOPPED raised, at once or when the arbitration places the TEST RESULT it waits for. One already
release pending stays as it is. A serial no record carries is NOT_FOUND, a record in another state BUSY. -/
def Obligations.ReleaseOfHeldRecord : Prop :=
  ∀ (s : State) (h : Header) (a b c d : Byte), s.part.Takes h 6 → s.part.RegisterSound →
    let serial := read4 a b c d
    (∀ r, s.part.recordOf serial = some r → r.state = .manualHeld → r.releasePending = false → r.resultOwed = false →
      ∃ t : Controller, exec (.release h [a, b, c, d]) s = .next (s.withPart t) ∧ t.recordOf serial = none ∧
        t.Replied (replyTo h 3 none [10]) ∧
        (s.part.line.state = .stopping → s.part.records = [r] →
          t.line = { s.part.line with state := .stopped } ∧ t.Reported .lineStopped 0 0) ∧
        (s.part.line.state ≠ .stopping ∨ (∃ x ∈ s.part.records, x.slot ≠ r.slot ∧ x.releasePending = false) →
          t.line = s.part.line)) ∧
    (∀ (c : Controller) (r : Record) (l : LastResult), c.line.state = .stopping → c.records = [r] → r.releasePending = true →
      r.resultOwed = true → r.lastResult = some l → r.slot < 64 → (∀ n, (c.jacket n).owedCommand = none) → c.mark.owed = none →
      c.Judged → c.ring.queue.length < 16 → normalCount c.ring.queue < 12 →
      c.arbitrate.records = [] ∧ c.arbitrate.line = { c.line with state := .stopped } ∧ c.arbitrate.Reported .lineStopped 0 0 ∧
        ∃ e ∈ c.arbitrate.ring.queue, e.owner = .lost ∧ e.body = .testResult r.serial l) ∧
    (∀ r, s.part.recordOf serial = some r → r.state = .manualHeld → r.releasePending = false → r.resultOwed = true →
      ∃ t : Controller, exec (.release h [a, b, c, d]) s = .next (s.withPart t) ∧
        t.recordOf serial = some { r with releasePending := true } ∧ t.Replied (replyTo h 3 none [10])) ∧
    (∀ r, s.part.recordOf serial = some r → r.state = .manualHeld → r.releasePending = true →
      ∃ t : Controller, exec (.release h [a, b, c, d]) s = .next (s.withPart t) ∧
        s.part.OnlyAnswers t (manageFrame h [3, 10, a, b, c, d]).markTaken.wire ∧ t.Replied (replyTo h 3 none [10])) ∧
    (s.part.recordOf serial = none →
      ∃ t : Controller, exec (.release h [a, b, c, d]) s = .next (s.withPart t) ∧ t.records = s.part.records ∧
        t.Replied (replyTo h 3 (some .notFound) [10])) ∧
    (∀ r, s.part.recordOf serial = some r → r.state ≠ .manualHeld →
      ∃ t : Controller, exec (.release h [a, b, c, d]) s = .next (s.withPart t) ∧ t.records = s.part.records ∧
        t.Replied (replyTo h 3 (some .busy) [10]))

/-! ### Line Control -/

/-- START: on a STOPPED or STOPPING line with the plant date set, a complete station map and the ring UP the line is RUNNING; the first check that
fails refuses it. STOP: a RUNNING line with an empty register is STOPPED, and one whose register, sound, holds records is STOPPING; in any other state it is refused
with LINE_STATE. When the line becomes RUNNING or STOPPING the infeed mark is judged and then (at STOP log entry 31, the model's reading) the jacket
passes are made, from jacket 0 to jacket 7, each on
what those before it left: the records and the jackets are those the passes leave (RecordPassAssigns says what a pass does); with no record waiting
the records stay as they are. -/
def Obligations.StartAndStop : Prop :=
  (∀ (s : State) (h : Header), s.part.Takes h 2 →
     let refusedWith (reason : Reason) : Prop :=
       ∃ t : Controller, exec (.start h []) s = .next (s.withPart t) ∧
         s.part.OnlyAnswers t (manageFrame h [3, 1]).markTaken.wire ∧ t.Replied (replyTo h 3 (some reason) [1])
     (s.part.line.state = .stopped ∨ s.part.line.state = .stopping → s.part.line.date ≠ none →
       s.part.mapComplete = true → s.part.ring.status = .up →
       ∃ t : Controller, exec (.start h []) s = .next (s.withPart t) ∧
         t.line = { s.part.line with state := .running } ∧ t.Judged ∧ t.Replied (replyTo h 3 none [1]) ∧
         let taken := s.part.taken (manageFrame h [3, 1]).markTaken.wire
         (({ taken with line := { taken.line with state := .running } }).judge false).eightPasses.CarriesOn t) ∧
     (s.part.line.state = .running ∨ s.part.line.state = .holding → refusedWith .lineState) ∧
     (s.part.line.state = .stopped ∨ s.part.line.state = .stopping → s.part.line.date = none → refusedWith .noDate) ∧
     (s.part.line.state = .stopped ∨ s.part.line.state = .stopping → s.part.line.date ≠ none →
       s.part.mapComplete = false → refusedWith .noMap) ∧
     (s.part.line.state = .stopped ∨ s.part.line.state = .stopping → s.part.line.date ≠ none →
       s.part.mapComplete = true → s.part.ring.status = .down → refusedWith .ringDown)) ∧
  (∀ (s : State) (h : Header), s.part.Takes h 2 →
     (s.part.line.state = .running → s.part.records = [] →
       ∃ t : Controller, exec (.stop h []) s = .next (s.withPart t) ∧ t.line = { s.part.line with state := .stopped } ∧
         t.Judged ∧ t.Replied (replyTo h 3 none [2])) ∧
     (s.part.line.state = .running → s.part.records ≠ [] → s.part.RegisterSound →
       ∃ t : Controller, exec (.stop h []) s = .next (s.withPart t) ∧ t.line = { s.part.line with state := .stopping } ∧
         (s.part.waitingQueue = [] → t.records = s.part.records) ∧ t.Judged ∧ t.Replied (replyTo h 3 none [2]) ∧
         let taken := s.part.taken (manageFrame h [3, 2]).markTaken.wire
         (({ taken with line := { taken.line with state := .stopping } }).judge false).eightPasses.CarriesOn t) ∧
     (s.part.line.state ≠ .running →
       ∃ t : Controller, exec (.stop h []) s = .next (s.withPart t) ∧
         s.part.OnlyAnswers t (manageFrame h [3, 2]).markTaken.wire ∧ t.Replied (replyTo h 3 (some .lineState) [2])))

/-- RESUME of a HOLDING line with no cause present takes the hold-from state, STOPPED with LINE_STOPPED raised when a drain has emptied the register
(and STOPPING while a record is left whose release is not pending). In RUNNING or STOPPING, after the judgment and the owed arbitration, a HELD_VENTED
jacket starts its program with one more attempt of the record that it alone serves, one still in RECOVERING(HOLD) is marked restart pending, and the
jacket passes are made from jacket 0 to jacket 7 (RecordPassAssigns says what a pass does). It is refused with LINE_STATE on a line that is not
HOLDING and with HOLD_ACTIVE while a cause is present. That the hold-from state is then STOPPED whatever it was is the reading of log entry 15; that
the jackets act in number order is the model's choice, log entry 34. -/
def Obligations.ResumeTakesHoldFrom : Prop :=
  ∀ (s : State) (h : Header), s.part.Takes h 2 →
    let resumes (t : Controller) : Prop := ∀ n : JacketNo,
      ((s.part.jacket n).state = .heldVented → (s.part.tables.blockAt (s.part.jacket n).programStart).kind = .zero →
        (t.jacket n).state = .running .zero ∧ (t.jacket n).currentBlock = (s.part.jacket n).programStart) ∧
      ((s.part.jacket n).state = .recovering .hold →
        (t.jacket n).state = .recovering .hold ∧ (t.jacket n).restartPending = true) ∧
      (∀ r : Record, s.part.RegisterSound → (s.part.jacket n).state = .heldVented → (s.part.jacket n).slot = some r.slot →
        s.part.recordAt r.slot = some r → r.releasePending = false → (∀ m : JacketNo, m ≠ n → (s.part.jacket m).slot ≠ some r.slot) →
        ∃ r', t.recordAt r.slot = some r' ∧ r.SameIdentity r' ∧ r'.attempts = min 255 (r.attempts + 1))
    let passes (t : Controller) : Prop :=
      let taken := s.part.taken (manageFrame h [3, 3]).markTaken.wire
      let left := { taken with line := { taken.line with state := s.part.line.holdFrom, holdFrom := .stopped } }
      (jacketNumbers.foldl Controller.jacketResume (left.judge false).arbitrate).eightPasses.CarriesOn t
    (s.part.line.state = .holding → s.part.line.causeLineHold = false → s.part.line.causeRing = false →
      (s.part.line.holdFrom = .running ∨ s.part.line.holdFrom = .stopped →
        ∃ t : Controller, exec (.resume h []) s = .next (s.withPart t) ∧
          t.line = { s.part.line with state := s.part.line.holdFrom, holdFrom := .stopped } ∧ t.Judged ∧
          (s.part.line.holdFrom = .running → resumes t ∧ passes t) ∧ t.Replied (replyTo h 3 none [3])) ∧
      (s.part.line.holdFrom = .stopping → s.part.RegisterSound → (∃ x ∈ s.part.records, x.releasePending = false) →
        ∃ t : Controller, exec (.resume h []) s = .next (s.withPart t) ∧
          t.line = { s.part.line with state := .stopping, holdFrom := .stopped } ∧ t.Judged ∧ resumes t ∧ passes t ∧
          t.Replied (replyTo h 3 none [3])) ∧
      (s.part.line.holdFrom = .stopping → s.part.records = [] →
        ∃ t : Controller, exec (.resume h []) s = .next (s.withPart t) ∧
          t.line = { s.part.line with state := .stopped, holdFrom := .stopped } ∧ t.Reported .lineStopped 0 0 ∧
          t.Replied (replyTo h 3 none [3]))) ∧
    (s.part.line.state = .holding → s.part.line.causeLineHold = true ∨ s.part.line.causeRing = true →
      ∃ t : Controller, exec (.resume h []) s = .next (s.withPart t) ∧
        s.part.OnlyAnswers t (manageFrame h [3, 3]).markTaken.wire ∧ t.Replied (replyTo h 3 (some .holdActive) [3])) ∧
    (s.part.line.state ≠ .holding →
      ∃ t : Controller, exec (.resume h []) s = .next (s.withPart t) ∧
        s.part.OnlyAnswers t (manageFrame h [3, 3]).markTaken.wire ∧ t.Replied (replyTo h 3 (some .lineState) [3]))

/-- RESTART in STOPPED or HOLDING: the register and the frozen view buffer are empty, RUNNING and RECOVERING jackets vent as RECOVERING(RESTART) and
the others are DISABLED, the infeed mark is HELD, and the date, the items, the tables and the verification fields are kept. The insertion queue
keeps its VENTs in order and loses every other frame; behind them come the VENTs the jackets owed and those they make, by jacket number, the
INFEED HOLD and the reply, as far as there is room. The outstanding entries are kept, those of records, of the infeed mark, of notices and of
replies without their owner (that one of a recordless order stays as it is: log entry 31); the rest of the Ring Port is kept. In
RUNNING or STOPPING it is refused with LINE_STATE. -/
def Obligations.RestartClears : Prop :=
  ∀ (s : State) (h : Header), s.part.Takes h 2 →
    (s.part.line.state = .stopped ∨ s.part.line.state = .holding →
      ∃ t : Controller, exec (.restart h []) s = .next (s.withPart t) ∧ t.records = [] ∧ t.mark.value = .held ∧
        t.responder.frozen = none ∧ t.tables = s.part.tables ∧ t.verification = s.part.verification ∧
        t.line = { s.part.line with
          state :=
            if s.part.line.state = .holding ∧ (s.part.line.causeLineHold = true ∨ s.part.line.causeRing = true) then .holding
            else .stopped
          holdFrom :=
            if s.part.line.state = .holding ∧ (s.part.line.causeLineHold = true ∨ s.part.line.causeRing = true) then .stopped
            else s.part.line.holdFrom } ∧
        (∀ n : JacketNo, (s.part.jacket n).state.pressing = true →
          (t.jacket n).state = .recovering .restart ∧ (t.jacket n).slot = none ∧ t.Commanded n .vent) ∧
        (∀ n : JacketNo, (s.part.jacket n).state.pressing = false →
          (t.jacket n).state = .disabled ∧ (t.jacket n).awaited = none ∧ (t.jacket n).loaded = none ∧
            (t.jacket n).slot = none) ∧
        (∀ cls : NoticeClass, (t.notice cls).enable = (s.part.notice cls).enable ∧ (t.notice cls).pending = false) ∧
        (let vents := s.part.ring.queue.filter fun e => match e.body with
           | .command _ .vent => true
           | _ => false
         let vent (n : JacketNo) : Body := .command n .vent
         let owing := jacketNumbers.filter fun n => (s.part.jacket n).owedCommand == some .vent
         let venting := jacketNumbers.filter fun n => (s.part.jacket n).state.pressing
         let last : List Body := [.infeed .hold, .reply (replyTo h 3 none [4])]
         ∃ made : List QueueEntry, t.ring.queue = vents ++ made ∧
           (made.map QueueEntry.body).Sublist (owing.map vent ++ venting.map vent ++ last) ∧
           (owing = [] → vents.length + venting.length + 2 ≤ 16 → made.map QueueEntry.body = venting.map vent ++ last)) ∧
        (t.ring.outstanding = s.part.ring.outstanding.map fun e =>
          { e with owner := match e.owner with
              | .record _ | .infeed | .notice _ | .reply => .lost
              | kept => kept }) ∧
        t.ring.forward = s.part.ring.forward ++ [(manageFrame h [3, 4]).markTaken.wire] ∧ t.ring.status = s.part.ring.status ∧
        t.ring.streak = s.part.ring.streak ∧ t.ring.nodeAddress = s.part.ring.nodeAddress ∧
        t.ring.sequence = s.part.ring.sequence ∧ t.ring.transmitter = s.part.ring.transmitter ∧
        t.Replied (replyTo h 3 none [4])) ∧
    (s.part.line.state = .running ∨ s.part.line.state = .stopping →
      ∃ t : Controller, exec (.restart h []) s = .next (s.withPart t) ∧
        s.part.OnlyAnswers t (manageFrame h [3, 4]).markTaken.wire ∧ t.Replied (replyTo h 3 (some .lineState) [4]))

/-- SET_DATE: a valid date that differs from the plant date becomes it and clears every verified flag, and no other verification field, jacket or
record changes; the date that stands changes no flag; an invalid date is refused with BAD_FIELD and changes no flag. -/
def Obligations.SetDateClearsVerification : Prop :=
  ∀ (s : State) (h : Header) (y1 y2 month day : Byte), s.part.Takes h 6 →
    let d : Date := { year := read2 y1 y2, month := month.toNat, day := day.toNat }
    let data : List Byte := [5]
    (d.valid = true → s.part.line.date ≠ some d →
      ∃ t : Controller, exec (.setDate h [y1, y2, month, day]) s = .next (s.withPart t) ∧
        t.line = { s.part.line with date := some d } ∧
        (∀ n : JacketNo, t.verif n = { s.part.verif n with verified := false }) ∧ t.jackets = s.part.jackets ∧
        (∀ (n : JacketNo) (r : Record), r.spec.reference = none → t.eligible n r = false) ∧
        t.records = s.part.records ∧ t.Replied (replyTo h 3 none data)) ∧
    (d.valid = true → s.part.line.date = some d →
      ∃ t : Controller, exec (.setDate h [y1, y2, month, day]) s = .next (s.withPart t) ∧
        s.part.OnlyAnswers t (manageFrame h [3, 5, y1, y2, month, day]).markTaken.wire ∧ t.Replied (replyTo h 3 none data)) ∧
    (d.valid = false →
      ∃ t : Controller, exec (.setDate h [y1, y2, month, day]) s = .next (s.withPart t) ∧
        s.part.OnlyAnswers t (manageFrame h [3, 5, y1, y2, month, day]).markTaken.wire ∧
        t.Replied (replyTo h 3 (some .badField) data))

/-- SET_CONFIG of a numeric item in STOPPED: a value in the item's range replaces it, one outside is refused with BAD_FIELD; an item code outside 0
to 5 is refused with BAD_FIELD, and any item while the line is not STOPPED with LINE_STATE. The plant code takes four letters or digits. -/
def Obligations.SetConfigReplacesItem : Prop :=
  ∀ (s : State) (h : Header) (x a b : Byte), s.part.Takes h 5 →
    let v := read2 a b
    let sets (i : Items) : Prop :=
      ∃ t : Controller, exec (.setConfig h [x, a, b]) s = .next (s.withPart t) ∧ t.line = { s.part.line with items := i } ∧
        t.Replied (replyTo h 3 none [6])
    let refused (reason : Reason) : Prop :=
      ∃ t : Controller, exec (.setConfig h [x, a, b]) s = .next (s.withPart t) ∧
        s.part.OnlyAnswers t (manageFrame h [3, 6, x, a, b]).markTaken.wire ∧ t.Replied (replyTo h 3 (some reason) [6])
    let item (code low high : Nat) (i : Items) : Prop :=
      x.toNat = code → (s.part.line.state = .stopped → if low ≤ v ∧ v ≤ high then sets i else refused .badField) ∧
        (s.part.line.state ≠ .stopped → refused .lineState)
    item 1 5 250 { s.part.line.items with returnTime := v } ∧
    item 2 100 10000 { s.part.line.items with sampleAgeLimit := v } ∧
    item 3 0 11 { s.part.line.items with advanceWindow := v } ∧
    item 4 1 50 { s.part.line.items with thermalLimit := v } ∧
    item 5 10 1000 { s.part.line.items with zeroThreshold := v } ∧
    (5 < x.toNat → refused .badField) ∧
    (∀ code : List Byte, x = 0 → code.length = 4 → code.all isAlnum = true → s.part.Takes h 7 →
      s.part.line.state = .stopped →
      ∃ t : Controller, exec (.setConfig h (0 :: code)) s = .next (s.withPart t) ∧
        t.line = { s.part.line with items := { s.part.line.items with plantCode := code } } ∧
        t.Replied (replyTo h 3 none [6])) ∧
    (∀ (code : List Byte) (reason : Reason), x = 0 → code.length = 4 → s.part.Takes h 7 →
      (s.part.line.state ≠ .stopped ∧ reason = .lineState) ∨
        (s.part.line.state = .stopped ∧ code.all isAlnum = false ∧ reason = .badField) →
      ∃ t : Controller, exec (.setConfig h (0 :: code)) s = .next (s.withPart t) ∧
        s.part.OnlyAnswers t (manageFrame h (3 :: 6 :: 0 :: code)).markTaken.wire ∧
        t.Replied (replyTo h 3 (some reason) [6]))

/-! ### Commands of a jacket -/

/-- JACKET_ENABLE of a DISABLED or faulted jacket that the map holds: every field of its context and of its verification is at its power-on value but
the state, which is IDLE; then its jacket pass is made, and the records and the jackets are those it leaves (RecordPassAssigns says what a pass
does), with no record waiting those that stood. It is refused with NOT_MAPPED when no address maps it, and with BUSY in every other state. -/
def Obligations.JacketEnableBringsIdle : Prop :=
  ∀ (s : State) (h : Header) (n : JacketNo), s.part.Takes h 3 →
    let number : Byte := BitVec.ofNat 8 n.val
    let free := (s.part.jacket n).state = .disabled ∨ (s.part.jacket n).state.isFault = true
    let mapped := ∃ i : Fin 64, (s.part.tables.stations.get i).isJacket n = true
    let refused (reason : Reason) : Prop :=
      ∃ t : Controller, exec (.jacketEnable h [number]) s = .next (s.withPart t) ∧
        s.part.OnlyAnswers t (manageFrame h [3, 7, number]).markTaken.wire ∧ t.Replied (replyTo h 3 (some reason) [7])
    (free → mapped → s.part.waitingQueue = [] →
      ∃ t : Controller, exec (.jacketEnable h [number]) s = .next (s.withPart t) ∧
        t.jacket n = { Jacket.powerOn with state := .idle } ∧ t.verif n = .powerOn ∧
        (∀ m : JacketNo, m ≠ n → t.jacket m = s.part.jacket m ∧ t.verif m = s.part.verif m) ∧
        t.records = s.part.records ∧ t.Replied (replyTo h 3 none [7])) ∧
    (free → mapped →
      ∃ t : Controller, exec (.jacketEnable h [number]) s = .next (s.withPart t) ∧ t.Replied (replyTo h 3 none [7]) ∧
        let taken := s.part.taken (manageFrame h [3, 7, number]).markTaken.wire
        let enabled := (taken.updJacket n fun _ => { Jacket.powerOn with state := .idle }).updVerif n fun _ => .powerOn
        (enabled.jacketPass n).CarriesOn t) ∧
    (free → ¬mapped → refused .notMapped) ∧
    (¬free → refused .busy)

/-- JACKET_DISABLE of an IDLE or faulted jacket: it is DISABLED with its serials and its record slot cleared, its verification kept, and eligible for
no record; in every other state it is refused with BUSY. -/
def Obligations.JacketDisableTakesOut : Prop :=
  ∀ (s : State) (h : Header) (n : JacketNo), s.part.Takes h 3 →
    let number : Byte := BitVec.ofNat 8 n.val
    let free := (s.part.jacket n).state = .idle ∨ (s.part.jacket n).state.isFault = true
    (free →
      ∃ t : Controller, exec (.jacketDisable h [number]) s = .next (s.withPart t) ∧
        t.jacket n = { s.part.jacket n with state := .disabled, awaited := none, loaded := none, slot := none } ∧
        (∀ m : JacketNo, m ≠ n → t.jacket m = s.part.jacket m) ∧ t.verification = s.part.verification ∧
        (∀ r : Record, t.eligible n r = false) ∧ (∀ size, t.roleBusy (.jacket n size) = false) ∧
        t.tables = s.part.tables ∧ t.records = s.part.records ∧ t.Replied (replyTo h 3 none [8])) ∧
    (¬free →
      ∃ t : Controller, exec (.jacketDisable h [number]) s = .next (s.withPart t) ∧
        s.part.OnlyAnswers t (manageFrame h [3, 8, number]).markTaken.wire ∧ t.Replied (replyTo h 3 (some .busy) [8]))

/-- JACKET_ABORT of a RUNNING jacket: it has made a VENT and no SET of it stands, and it is RECOVERING(ABORT) with its times begun afresh; the
verification fields are unchanged. In every other state it is refused with BUSY. -/
def Obligations.JacketAbortVents : Prop :=
  ∀ (s : State) (h : Header) (n : JacketNo), s.part.Takes h 3 →
    let number : Byte := BitVec.ofNat 8 n.val
    (∀ k, (s.part.jacket n).state = .running k →
      ∃ t : Controller, exec (.jacketAbort h [number]) s = .next (s.withPart t) ∧
        (t.jacket n).state = .recovering .abort ∧ (t.jacket n).elapsed = 0 ∧ (t.jacket n).acc = .clear ∧
        t.Commanded n .vent ∧
        (∀ target rate, (t.jacket n).owedCommand ≠ some (.set target rate) ∧
          ∀ e ∈ t.ring.queue, e.owner = .jacket n → e.body ≠ .command n (.set target rate)) ∧
        (∀ r' ∈ t.records, ∃ r ∈ s.part.records, r.SameIdentity r' ∧ r'.attempts = r.attempts ∧
          r'.countedInvalids = r.countedInvalids ∧ r'.state = r.state) ∧
        t.verification = s.part.verification ∧ t.Replied (replyTo h 3 none [9])) ∧
    ((s.part.jacket n).state.isRunning = false →
      ∃ t : Controller, exec (.jacketAbort h [number]) s = .next (s.withPart t) ∧
        s.part.OnlyAnswers t (manageFrame h [3, 9, number]).markTaken.wire ∧ t.Replied (replyTo h 3 (some .busy) [9]))

/-! ### Notices -/

/-- A raise sets the class pending with one more raise counted, at most 255, and this detail. A class that is not enabled, has no MASTER in the map
or finds no room stays so; otherwise its NOTICE is placed at the tail of the queue for the MASTER's node and the class is cleared, with its
enable cleared if it is one-shot. A frame has room unless the line is HOLDING and it belongs to the hold set, while the queue holds fewer than 16
frames and, for a NORMAL one, fewer than 12 NORMAL ones. URGENT are VENT and INFEED HOLD; the hold set is the gate, stamp and scrap orders, the
commands but VENT, INFEED RELEASE and the NOTICEs of the classes that are not hold-critical. The owed arbitration offers the owed VENTs by jacket
number, the INFEED HOLD, each record's TEST RESULT and orders in register order, the other commands by jacket number, the INFEED RELEASE, the
reply, and the offerable classes by their code: with room for all (and no hold and no release pending) it places all of them in that order, and on
a line that is not RUNNING it places, whatever the room, none but some of them, in that order. -/
def Obligations.NoticesRaised : Prop :=
  (∀ (c : Controller) (b : Body), c.hasRoom b = true ↔
     ¬(c.line.state = .holding ∧ b.holdSet = true) ∧ c.ring.queue.length < 16 ∧
       (b.urgent = false → normalCount c.ring.queue < 12)) ∧
  (∀ b : Body,
     (b.urgent = true ↔ (∃ n, b = .command n .vent) ∨ b = .infeed .hold) ∧
     (b.holdSet = true ↔
       (∃ x d, b = .gate x d) ∨ (∃ x marks, b = .stampOrder x marks) ∨ (∃ x, b = .scrapOrder x) ∨
         (∃ n k, b = .command n k ∧ k ≠ .vent) ∨ b = .infeed .release ∨
         ∃ cls count subject cause, b = .notice cls count subject cause ∧
           cls ∉ [NoticeClass.overpressure, .lineHold, .ringRestored, .jacketFault, .undelivered])) ∧
  (∀ c : Controller, c.RegisterSound → c.Judged → (∀ r ∈ c.records, r.releasePending = false) →
     (∀ r ∈ c.records, r.resultOwed = true → r.lastResult ≠ none) →
     let jackets (vent : Bool) : List Body := jacketNumbers.flatMap fun n =>
       ((c.jacket n).owedCommand.toList.filter fun k => (k == .vent) == vent).map (Body.command n)
     let infeed (o : InfeedOrder) : List Body :=
       if c.mark.owed.map OwedInfeed.order = some o ∧ c.mark.value = (if o = .hold then .held else .released) then [.infeed o] else []
     let records : List Body := c.records.flatMap fun r =>
       (if r.resultOwed then r.lastResult.toList.map (Body.testResult r.serial) else []) ++
         r.owedOrders.map (Order.body r.serial)
     let reply : List Body := match c.responder.buffer with
       | .holding r => [.reply r]
       | _ => []
     let notices : List Body :=
       ([.overpressure, .lineHold, .ringRestored, .jacketFault, .undelivered, .calibration, .manualDivert, .duplicateSerial,
         .strayReport, .infeedHeld, .programFault, .lineStopped] : List NoticeClass).flatMap fun cls =>
         if (c.notice cls).pending ∧ (c.notice cls).enable ∧ Role.master ∈ c.tables.stations.toList then
           [.notice cls (c.notice cls).count (c.notice cls).subject (c.notice cls).cause]
         else []
     let owed := jackets true ++ infeed .hold ++ records ++ jackets false ++ infeed .release ++ reply ++ notices
     ∃ placed : List QueueEntry, c.arbitrate.ring.queue = c.ring.queue ++ placed ∧
       (c.line.state ≠ .holding → c.ring.queue.length + owed.length < 12 → placed.map QueueEntry.body = owed) ∧
       (c.line.state ≠ .running → (placed.map QueueEntry.body).Sublist owed)) ∧
  ∀ (c : Controller) (cls : NoticeClass) (subject cause : Nat),
    let count := min 255 ((c.notice cls).count + 1)
    let body : Body := .notice cls count subject cause
    let mapped : Prop := ∃ i : Fin 64, c.tables.stations.get i = .master
    ((c.notice cls).enable = false ∨ ¬mapped ∨ c.hasRoom body = false →
      c.raise cls subject cause =
        c.updNotice cls fun s => { s with pending := true, count, subject, cause, testMark := false }) ∧
    ((c.notice cls).enable = true → mapped → c.hasRoom body = true → cls ≠ .infeedHeld →
      (c.raise cls subject cause).notice cls =
        { pending := false, enable := !cls.oneShot, count := 0, subject := 0, cause := 0, testMark := false } ∧
      c.ring.queue ++ [{ destination := c.nodeWhere (· == .master), body, owner := .notice cls, clearedEnable := cls.oneShot, testMark := false }] <+:
        (c.raise cls subject cause).ring.queue ∧
      (c.raise cls subject cause).records = c.records ∧ (c.raise cls subject cause).jackets = c.jackets)

/-- The judgment of the infeed mark. A mark whose value stands only takes its reasons. One whose value changes makes an INFEED frame with its new value
when it owes none, or when it owes the opposite order REPEAT: placed for the ENTRY's node, or owed FRESH without room; after a freeing it is owed
FRESH for the arbitration that follows, and not placed. One that owes the opposite order FRESH owes nothing any more and makes no frame. A flip to
HELD while the line is RUNNING raises INFEED_HELD with subject 0 and the sum of the reasons, 2 for a full register and 4 for a full queue, whether or
not it makes a frame: placed behind that frame, or pending. Any other flip raises nothing. -/
def Obligations.InfeedFlips : Prop :=
  ∀ (c : Controller) (freed : Bool) (before : List QueueEntry),
    let wanted := c.infeedReasons.wanted
    let d := c.judge freed
    let frame : QueueEntry :=
      { destination := c.nodeWhere (· == .entry), body := .infeed wanted.order, owner := .infeed, clearedEnable := false, testMark := false }
    let makes : Prop := c.mark.owed = none ∨ ∃ o, o ≠ wanted.order ∧ c.mark.owed = some { order := o, origin := .repeated }
    let places : Prop := makes ∧ freed = false ∧ c.hasRoom (.infeed wanted.order) = true
    let count := min 255 ((c.notice .infeedHeld).count + 1)
    let cause := (if c.records.length < 64 then 0 else 2) + (if c.infeedReasons.queueFull then 4 else 0)
    let notice : QueueEntry :=
      { destination := c.nodeWhere (· == .master), body := .notice .infeedHeld count 0 cause, owner := .notice .infeedHeld
        clearedEnable := false, testMark := false }
    let sent : Prop := (c.notice .infeedHeld).enable = true ∧ (∃ i : Fin 64, c.tables.stations.get i = .master) ∧
      before.length < 16 ∧ normalCount before < 12
    (c.mark.value = wanted → d = { c with mark := { c.mark with reasons := c.infeedReasons } }) ∧
    (c.mark.value ≠ wanted → (places → before = c.ring.queue ++ [frame]) → (¬places → before = c.ring.queue) →
      d.mark.value = wanted ∧ d.records = c.records ∧ d.jackets = c.jackets ∧ d.line = c.line ∧
      (places → d.mark.owed = none) ∧
      (makes → ¬places → d.mark.owed = some { order := wanted.order, origin := .fresh }) ∧
      (∀ o, c.mark.owed = some { order := o, origin := .fresh } → o ≠ wanted.order → d.mark.owed = none) ∧
      (wanted = .held → c.line.state = .running →
        (sent → d.ring.queue = before ++ [notice] ∧ d.notice .infeedHeld =
          { pending := false, enable := true, count := 0, subject := 0, cause := 0, testMark := false }) ∧
        (¬sent → d.ring.queue = before ∧
          d.notice .infeedHeld = { c.notice .infeedHeld with pending := true, count, subject := 0, cause, testMark := false })) ∧
      (wanted = .released ∨ c.line.state ≠ .running → d.ring.queue = before ∧ d.notices = c.notices))

/-- SET_NOTICE_ENABLES with twelve bytes 0 or 1 replaces every class's enable (a one-shot class that is pending may then be placed, which clears its
enable again); any other value refuses it and changes no enable. TEST_NOTICE raises the class of its code with subject 0 and cause 0 (INFEED_HELD
may be raised once more by the reply's own placement); its placement clears no enable. A code outside 1 to 12 is refused with BAD_FIELD. -/
def Obligations.NoticeCommands : Prop :=
  (∀ (s : State) (h : Header) (l : List Byte), s.part.Takes h 14 → l.length = 12 →
     ((∀ b ∈ l, b = 0 ∨ b = 1) →
       ∃ t : Controller, exec (.setNoticeEnables h l) s = .next (s.withPart t) ∧
         (∀ cls : NoticeClass, cls.oneShot = false ∨ (s.part.notice cls).pending = false →
           ((t.notice cls).enable = true ↔ l[cls.index.val]? = some 1)) ∧
         t.records = s.part.records ∧ t.jackets = s.part.jackets ∧ t.line = s.part.line ∧ t.Replied (replyTo h 3 none [11])) ∧
     ((∃ b ∈ l, b ≠ 0 ∧ b ≠ 1) →
       ∃ t : Controller, exec (.setNoticeEnables h l) s = .next (s.withPart t) ∧
         s.part.OnlyAnswers t (manageFrame h (3 :: 11 :: l)).markTaken.wire ∧
         (∀ cls : NoticeClass, (t.notice cls).enable = (s.part.notice cls).enable) ∧
         t.Replied (replyTo h 3 (some .badField) [11]))) ∧
  (∀ (s : State) (h : Header) (code : Byte), s.part.Takes h 3 →
     (∀ cls : NoticeClass, cls.code = code.toNat →
       ∃ t : Controller, exec (.testNotice h [code]) s = .next (s.withPart t) ∧
         (cls ≠ .infeedHeld → t.Reported cls 0 0) ∧
         (∀ k : NoticeClass, (t.notice k).enable = (s.part.notice k).enable) ∧ t.records = s.part.records ∧
         t.Replied (replyTo h 3 none [12])) ∧
     (code.toNat = 0 ∨ 12 < code.toNat →
       ∃ t : Controller, exec (.testNotice h [code]) s = .next (s.withPart t) ∧
         s.part.OnlyAnswers t (manageFrame h [3, 12, code]).markTaken.wire ∧ t.Replied (replyTo h 3 (some .badField) [12])))

/-! ### Requests, tables and views -/

/-- Requests that are refused before anything is done: a request kind outside 1 to 6 and a command code outside 1 to 12 with UNSUPPORTED; fields of a
wrong length, a MANAGE frame without a payload, a COMMAND without a code and a JACKET VIEW of another mode or length with BAD_FIELD; a jacket
number above 7 with BAD_INDEX; a TABLE WRITE of an unknown table with BAD_TABLE, of a count outside 1 to 8 or of records that cannot be read with
BAD_FIELD, and of an index outside its table with BAD_INDEX. The request is forwarded with its taken mark set, and nothing else but the reply is
made. -/
def Obligations.BadRequestsAreRefused : Prop :=
  ∀ (s : State) (h : Header),
    let refuses (i : Instr) (payload : List Byte) (kind : Nat) (reason : Reason) (data : List Byte) : Prop :=
      s.part.Takes h payload.length →
        ∃ t : Controller, exec i s = .next (s.withPart t) ∧
          s.part.OnlyAnswers t (manageFrame h payload).markTaken.wire ∧ t.Replied (replyTo h kind (some reason) data)
    let length (i : Header → List Byte → Instr) (code : Byte) (n : Nat) : Prop :=
      ∀ fields : List Byte, fields.length ≠ n → refuses (i h fields) (3 :: code :: fields) 3 .badField [code]
    ((∀ (kind : Byte) (rest : List Byte), kind.toNat = 0 ∨ 6 < kind.toNat →
       refuses (.manageUnsupported h (kind :: rest)) (kind :: rest) kind.toNat .unsupported []) ∧
     refuses (.manageUnsupported h []) [] 0 .badField [] ∧
     (∀ (code : Byte) (rest : List Byte), code.toNat = 0 ∨ 12 < code.toNat →
       refuses (.commandUnsupported h (code :: rest)) (3 :: code :: rest) 3 .unsupported [code]) ∧
     refuses (.commandUnsupported h []) [3] 3 .badField []) ∧
    (length .start 1 0 ∧ length .stop 2 0 ∧ length .resume 3 0 ∧ length .restart 4 0 ∧ length .setDate 5 4 ∧
     length .jacketEnable 7 1 ∧ length .jacketDisable 8 1 ∧ length .jacketAbort 9 1 ∧ length .release 10 4 ∧
     length .setNoticeEnables 11 12 ∧ length .testNotice 12 1 ∧
     refuses (.setConfig h []) [3, 6] 3 .badField [6] ∧
     (∀ (item : Byte) (value : List Byte), value.length ≠ (if item = 0 then 4 else 2) →
       refuses (.setConfig h (item :: value)) (3 :: 6 :: item :: value) 3 .badField [6])) ∧
    (∀ number : Byte, 7 < number.toNat →
      refuses (.jacketEnable h [number]) [3, 7, number] 3 .badIndex [7] ∧
      refuses (.jacketDisable h [number]) [3, 8, number] 3 .badIndex [8] ∧
      refuses (.jacketAbort h [number]) [3, 9, number] 3 .badIndex [9] ∧
      refuses (.jacketView h [0, number]) [4, 0, number] 4 .badIndex []) ∧
    (∀ fields : List Byte,
      (fields.length ≠ 4 → refuses (.recordView h fields) (5 :: fields) 5 .badField []) ∧
      (fields.length ≠ 1 → refuses (.registerList h fields) (6 :: fields) 6 .badField []) ∧
      (fields.length ≠ 3 → refuses (.tableRead h fields) (2 :: fields) 2 .badField []) ∧
      (fields.length < 4 → refuses (.tableWrite h fields) (1 :: fields) 1 .badField []) ∧
      (fields.length = 0 ∨ 2 < fields.length → refuses (.jacketView h fields) (4 :: fields) 4 .badField []) ∧
      (fields.length ≠ 1 → refuses (.frozenFirst h fields) (4 :: 1 :: fields) 4 .badField []) ∧
      (fields ≠ [] → refuses (.frozenNext h fields) (4 :: 2 :: fields) 4 .badField [])) ∧
    (∀ mode x : Byte,
      (mode ≠ 0 → mode ≠ 1 → refuses (.jacketView h [mode, x]) [4, mode, x] 4 .badField []) ∧
      (mode ≠ 2 → refuses (.jacketView h [mode]) [4, mode] 4 .badField [])) ∧
    (∀ (table i1 i2 count : Byte) (recs : List Byte),
      let refusesWrite (reason : Reason) : Prop :=
        refuses (.tableWrite h (table :: i1 :: i2 :: count :: recs)) (1 :: table :: i1 :: i2 :: count :: recs) 1 reason
          [i1, i2, count]
      (table.toNat = 0 ∨ 5 < table.toNat → refusesWrite .badTable) ∧
      (∀ name, tableOfCode table.toNat = some name →
        (count.toNat = 0 ∨ 8 < count.toNat → refusesWrite .badField) ∧
        (1 ≤ count.toNat → count.toNat ≤ 8 → readTableRecords name count.toNat recs = none → refusesWrite .badField) ∧
        (count.toNat = 1 → readTableRecords name 1 recs ≠ none → name.entries ≤ read2 i1 i2 → refusesWrite .badIndex)))

/-- TABLE_WRITE of one record that its table's rule accepts writes exactly that entry and is answered DONE with the first index and the count 1. -/
def Obligations.TableWriteWritesEntry : Prop :=
  ∀ (s : State) (h : Header) (i1 i2 : Byte) (rec : List Byte), s.part.Takes h (rec.length + 5) →
    let i := read2 i1 i2
    let writes (code : Byte) (tables : Tables) : Prop :=
      ∃ t : Controller, exec (.tableWrite h (code :: i1 :: i2 :: 1 :: rec)) s = .next (s.withPart t) ∧ t.tables = tables ∧
        t.records = s.part.records ∧ t.jackets = s.part.jackets ∧ t.line = s.part.line ∧
        t.Replied (replyTo h 1 none [i1, i2, 1])
    (∀ (hi : i < 128) r e, readTypeRecord rec = some r → judgeType s.part.tables r = .ok e →
      writes 1 { s.part.tables with types := s.part.tables.types.set i e hi }) ∧
    (∀ (hi : i < 16) w e, readWindow rec = some w → judgeWindow s.part.tables i w = .ok e →
      writes 2 { s.part.tables with windows := s.part.tables.windows.set i e hi }) ∧
    (∀ (hi : i < 256) a e, readDefect rec = some a → judgeDefect a = .ok e →
      writes 3 { s.part.tables with defects := s.part.tables.defects.set i e hi }) ∧
    (∀ (hi : i < 96) r e, readBlockRecord rec = some r → s.part.judgeBlock i r = .ok e →
      writes 4 { s.part.tables with blocks := s.part.tables.blocks.set i e hi }) ∧
    (∀ (hi : i < 64) r e, readStationRecord rec = some r → s.part.judgeStation i r = .ok e →
      writes 5 { s.part.tables with stations := s.part.tables.stations.set i e hi })

/-- The checks on the records of the five tables in their order, and the reason of the first that fails. A type record with valid clear writes an
invalid entry; one with valid set is BAD_FIELD while a field lies outside its range, BAD_PROGRAM while its chain fails the check (RecordPassAssigns
says what the check asks), and is written whole otherwise. A defect record is BAD_FIELD for any action but the four. A step block record is
BAD_FIELD while a field its kind uses lies outside its range or one it does not use is not 0, clear or absent, IN_USE while the block lies in the
chain of a jacket in AWAITING, RUNNING, RECOVERING or HELD_VENTED, and is written whole otherwise. Window and station map records follow. A
TABLE_WRITE of one refused record changes none of the tables and answers with the reason. A TABLE_WRITE of more stops at its first
refused record: the records before it stay written, and the reply gives the reason, the failing index and how many were not written. Shown for
owner windows. -/
def Obligations.TableWriteChecks : Prop :=
  (∀ (t : Tables) (r : TypeRecord),
     let inRange : Prop :=
       r.size ≤ 1 ∧ 1000 ≤ r.ptest ∧ r.ptest ≤ 60000 ∧ 1 ≤ r.window ∧ r.window ≤ 50 ∧
       1000 ≤ r.overpressure ∧ r.overpressure ≤ 1200 ∧ 1 ≤ r.ratioLimit ∧ r.ratioLimit ≤ 1000 ∧ r.ree ≤ 65535 ∧
       r.massLoss ≤ 500 ∧ r.massGain ≤ 500 ∧ 1 ≤ r.interval ∧ r.interval ≤ 15 ∧ r.programStart ≤ 95 ∧
       (r.suffix = 0 ∨ (0x41 ≤ r.suffix.toNat ∧ r.suffix.toNat ≤ 0x5A) ∨ (0x30 ≤ r.suffix.toNat ∧ r.suffix.toNat ≤ 0x39) ∨
         r.suffix = 0x2F ∨ r.suffix = 0x2D ∨ r.suffix = 0x20) ∧
       ((r.expected = 0 ∧ r.tolerance = 0) ∨
         (1 ≤ r.expected ∧ r.expected ≤ 65535 ∧ 1 ≤ r.tolerance ∧ r.tolerance ≤ 65535))
     (r.valid = false → judgeType t r = .ok .invalid) ∧
     (r.valid = true → ¬ inRange → judgeType t r = .error .badField) ∧
     (r.valid = true → inRange → t.chainOk r.programStart = false → judgeType t r = .error .badProgram) ∧
     (r.valid = true → inRange → t.chainOk r.programStart = true →
       judgeType t r = .ok
         { valid := true, size := if r.size = 0 then .small else .large, ptest := r.ptest, window := r.window,
           overpressure := r.overpressure, ratioLimit := r.ratioLimit, ree := if r.ree = 0 then none else some r.ree,
           massLoss := r.massLoss, massGain := r.massGain, interval := r.interval, programStart := r.programStart,
           suffix := if r.suffix = 0 then none else some r.suffix,
           reference := if r.expected = 0 ∧ r.tolerance = 0 then none
                        else some { expected := r.expected, tolerance := r.tolerance } })) ∧
  (judgeDefect 0 = .ok .accept ∧ judgeDefect 1 = .ok .rework ∧ judgeDefect 2 = .ok .condemn ∧ judgeDefect 3 = .ok .manual ∧
    ∀ action, 3 < action → judgeDefect action = .error .badField) ∧
  (∀ (c : Controller) (i : Nat) (r : BlockRecord),
     let settles : Prop := r.kind = 0 ∨ r.kind = 2 ∨ r.kind = 3
     let usedInRange : Prop :=
       r.kind ≤ 4 ∧ r.timeExp ≤ 11 ∧ (r.kind = 1 → r.target ≤ 1100 ∧ 1 ≤ r.rate ∧ r.rate ≤ 65535) ∧
       (r.kind ≠ 1 → r.duration ≤ 6000) ∧
       (settles → 1 ≤ r.samples ∧ r.samples ≤ 16 ∧ r.maxRecords ≤ 63 ∧ r.band ≤ 255) ∧
       (r.kind = 2 → ∀ l, r.leak = some l → l ≤ 65535)
     let unusedClear : Prop :=
       (r.kind ≠ 1 → r.target = 0 ∧ r.rate = 0) ∧ (r.kind = 1 → r.duration = 0) ∧
       (¬ settles → r.samples = 0 ∧ r.maxRecords = 0 ∧ r.band = 0) ∧ (r.kind ≠ 2 → r.reading = false ∧ r.leak = none)
     let inChainOf (n : JacketNo) : Prop :=
       (c.jacket n).programStart ≤ i ∧ i < (c.jacket n).programStart + 12 ∧ i ≤ 95 ∧
         ∀ j, (c.jacket n).programStart ≤ j → j < i → (c.tables.blockAt j).chain = true
     let protecting (n : JacketNo) : Prop :=
       (c.jacket n).state = .awaiting ∨ (∃ k, (c.jacket n).state = .running k) ∨
         (∃ x, (c.jacket n).state = .recovering x) ∨ (c.jacket n).state = .heldVented
     (¬ (usedInRange ∧ unusedClear) → c.judgeBlock i r = .error .badField) ∧
     (usedInRange → unusedClear → (∃ n, protecting n ∧ inChainOf n) → c.judgeBlock i r = .error .inUse) ∧
     (usedInRange → unusedClear → (∀ n, protecting n → ¬ inChainOf n) →
       ∃ kind, [BlockKind.zero, .ramp, .hold, .vent, .dwell][r.kind]? = some kind ∧
         c.judgeBlock i r = .ok
           { kind, chain := r.chain, target := r.target, rate := r.rate, duration := r.duration, samples := r.samples,
             maxRecords := r.maxRecords, band := r.band, timeExp := r.timeExp, reading := r.reading, leak := r.leak })) ∧
  ((∀ (t : Tables) (i : Nat) (w : Window), w.owner ≤ 255 →
     (w.valid = false → judgeWindow t i w = .ok .invalid) ∧
     (w.valid = true → (w.k < 8 ∨ 24 < w.k) → judgeWindow t i w = .error .badField) ∧
     (w.valid = true → 8 ≤ w.k → w.k ≤ 24 →
       (w.base % 2 ^ w.k ≠ 0 → judgeWindow t i w = .error .misaligned) ∧
       (w.base % 2 ^ w.k = 0 → (∃ j : Fin 16, j.val ≠ i ∧ (t.windows.get j).valid = true ∧
           (t.windows.get j).base < w.base + 2 ^ w.k ∧ w.base < (t.windows.get j).base + 2 ^ (t.windows.get j).k) →
         judgeWindow t i w = .error .overlap) ∧
       (w.base % 2 ^ w.k = 0 → (∀ j : Fin 16, j.val ≠ i → (t.windows.get j).valid = true →
           w.base + 2 ^ w.k ≤ (t.windows.get j).base ∨ (t.windows.get j).base + 2 ^ (t.windows.get j).k ≤ w.base) →
         judgeWindow t i w = .ok w))) ∧
   ∀ (c : Controller) (i : Nat) (r : StationRecord),
     (r.role? = none → c.judgeStation i r = .error .badField) ∧
     (∀ x, r.role? = some x →
       (x ≠ .none → (i = 0 ∨ i = 63 ∨ i = c.ring.nodeAddress.toNat) → c.judgeStation i r = .error .badIndex) ∧
       (x = .none ∨ (i ≠ 0 ∧ i ≠ 63 ∧ i ≠ c.ring.nodeAddress.toNat) →
         (c.line.state ≠ .stopped → c.judgeStation i r = .error .lineState) ∧
         (c.line.state = .stopped → (c.roleBusy (c.roleAt i) = true ∨ c.roleBusy x = true) →
           c.judgeStation i r = .error .busy) ∧
         (c.line.state = .stopped → c.roleBusy (c.roleAt i) = false → c.roleBusy x = false →
           ((∃ j : Fin 64, j.val ≠ i ∧ x.clashes (c.tables.stations.get j) = true) →
             c.judgeStation i r = .error .duplicateRole) ∧
           ((∀ j : Fin 64, j.val ≠ i → x.clashes (c.tables.stations.get j) = false) → c.judgeStation i r = .ok x))))) ∧
  (∀ (s : State) (h : Header) (i1 i2 : Byte) (rec : List Byte) (reason : Reason), s.part.Takes h (rec.length + 5) →
     let i := read2 i1 i2
     let refuses (code : Byte) : Prop :=
       ∃ t : Controller, exec (.tableWrite h (code :: i1 :: i2 :: 1 :: rec)) s = .next (s.withPart t) ∧
         s.part.OnlyAnswers t (manageFrame h (1 :: code :: i1 :: i2 :: 1 :: rec)).markTaken.wire ∧
         t.Replied (replyTo h 1 (some reason) [i1, i2, 1])
     (∀ r, i < 128 → readTypeRecord rec = some r → judgeType s.part.tables r = .error reason → refuses 1) ∧
     (∀ w, i < 16 → readWindow rec = some w → judgeWindow s.part.tables i w = .error reason → refuses 2) ∧
     (∀ a, i < 256 → readDefect rec = some a → judgeDefect a = .error reason → refuses 3) ∧
     (∀ r, i < 96 → readBlockRecord rec = some r → s.part.judgeBlock i r = .error reason → refuses 4) ∧
     (∀ r, i < 64 → readStationRecord rec = some r → s.part.judgeStation i r = .error reason → refuses 5)) ∧
  (∀ (s : State) (h : Header) (i1 i2 : Byte) (rec1 rec2 : List Byte) (w1 w2 e1 : Window) (reason : Reason)
     (hi : read2 i1 i2 < 16), s.part.Takes h (rec1.length + rec2.length + 5) → rec1.length = 8 → rec2.length = 8 →
     readWindow rec1 = some w1 → readWindow rec2 = some w2 → read2 i1 i2 + 1 < 16 →
     judgeWindow s.part.tables (read2 i1 i2) w1 = .ok e1 →
     judgeWindow { s.part.tables with windows := s.part.tables.windows.set (read2 i1 i2) e1 hi } (read2 i1 i2 + 1) w2 =
       .error reason →
     ∃ t : Controller, exec (.tableWrite h (2 :: i1 :: i2 :: 2 :: (rec1 ++ rec2))) s = .next (s.withPart t) ∧
       t.tables = { s.part.tables with windows := s.part.tables.windows.set (read2 i1 i2) e1 hi } ∧
       t.Replied (replyTo h 1 (some reason) (field2 (read2 i1 i2 + 1) ++ [1])))

/-- TABLE_READ answers with the entry as it stands, and changes nothing; an unknown table is BAD_TABLE, an index out of its range BAD_INDEX.
RECORD_VIEW and REGISTER_LIST answer with the record's view and with the list from the position asked for, and change nothing; an unknown serial
is NOT_FOUND, a position above 63 BAD_INDEX. The data of a RECORD_VIEW are the record's eleven groups of fields, and those of a REGISTER_LIST the line
state, the hold-from state, the two causes, the date, the number of records, the position and at most eight serials with their states, each in
its one, two or four bytes, the first the most significant (absent findings as two bytes of 0: log entry 23). -/
def Obligations.ReadsAnswer : Prop :=
  (∀ (s : State) (h : Header) (table i1 i2 : Byte), s.part.Takes h 4 →
     let answers (reason : Option Reason) (data : List Byte) : Prop :=
       ∃ t : Controller, exec (.tableRead h [table, i1, i2]) s = .next (s.withPart t) ∧
         s.part.OnlyAnswers t (manageFrame h [2, table, i1, i2]).markTaken.wire ∧ t.Replied (replyTo h 2 reason data)
     (table.toNat = 0 ∨ 5 < table.toNat → answers (some .badTable) []) ∧
     (∀ name, tableOfCode table.toNat = some name →
       (name.entries ≤ read2 i1 i2 → answers (some .badIndex) []) ∧
       (∀ data, s.part.tables.entryBytes name (read2 i1 i2) = some data → answers none data))) ∧
  (∀ (s : State) (h : Header),
     (∀ a b c d : Byte, s.part.Takes h 5 →
       let answers (reason : Option Reason) (data : List Byte) : Prop :=
         ∃ t : Controller, exec (.recordView h [a, b, c, d]) s = .next (s.withPart t) ∧
           s.part.OnlyAnswers t (manageFrame h [5, a, b, c, d]).markTaken.wire ∧ t.Replied (replyTo h 5 reason data)
       (∀ r, s.part.recordOf (read4 a b c d) = some r → answers none r.viewBytes) ∧
       (s.part.recordOf (read4 a b c d) = none → answers (some .notFound) [])) ∧
     (∀ p : Byte, s.part.Takes h 2 →
       let answers (reason : Option Reason) (data : List Byte) : Prop :=
         ∃ t : Controller, exec (.registerList h [p]) s = .next (s.withPart t) ∧
           s.part.OnlyAnswers t (manageFrame h [6, p]).markTaken.wire ∧ t.Replied (replyTo h 6 reason data)
       (p.toNat ≤ 63 → answers none (s.part.listBytes p.toNat)) ∧ (63 < p.toNat → answers (some .badIndex) []))) ∧
  (let one (x : Nat) : List Byte := [BitVec.ofNat 8 x]
   let two (x : Nat) : List Byte := one (x / 256) ++ one x
   let four (x : Nat) : List Byte := two (x / 65536) ++ two x
   let flag (x : Bool) : List Byte := if x then [1] else [0]
   let present (width : Nat) (x : Option (List Byte)) : List Byte := (x.map ([1] ++ ·)).getD (List.replicate (width + 1) 0)
   let date (x : Option Date) : List Byte := present 4 (x.map fun d => two d.year ++ one d.month ++ one d.day)
   let stateCode (x : RecordState) : Nat :=
     [RecordState.admitted, .weighed, .waiting, .routed, .testing, .unloading, .stamping, .scrapping, .leaving, .manualHeld].idxOf x
   let lineCode (x : LineState) : Nat := [LineState.stopped, .running, .stopping, .holding].idxOf x
   let heldCode (x : HeldCause) : Nat := [HeldCause.misroute, .undelivered, .jacketFault, .stampStopped, .scrapRefused].idxOf x
   let verdict (x : Verdict) : List Byte := match x with
     | .pass => [0, 0]
     | .fail k => one 1 ++ one ([FailCause.massLoss, .defect, .overpressure, .leak, .permanent, .elastic].idxOf k + 1)
     | .rework => [2, 0]
     | .manual k => one 3 ++ one ([ManualCause.noTare, .massGain, .defect, .program, .secondInvalid].idxOf k + 1)
     | .reference k => one 4 ++ one ([ReferenceCause.inTolerance, .outOfTolerance].idxOf k + 1)
   let outcome (x : EvalOutcome) : List Byte := match x with
     | .pass => [0, 0]
     | .fail k => one 1 ++ one (match k with | .overpressure => 1 | .permanent => 8 | .elastic => 9)
     | .invalid k => one 2 ++ one ([InvalidCause.leak, .unstable, .timeout, .thermal, .pressureWindow, .noExpansion].idxOf k + 2)
     | .reference k => one 3 ++ one ([ReferenceCause.inTolerance, .outOfTolerance].idxOf k + 10)
   let result (x : LastResult) : List Byte :=
     one x.jacket.val ++ one x.attempt ++ outcome x.outcome ++ two x.figures.z ++ two x.figures.t ++ two x.figures.ePerm ++
       two x.figures.ratio ++ two x.figures.elastic ++ two x.figures.pRead
   let order (x : Order) : List Byte := match x with
     | .gate _ => [17]
     | .stamp _ => [19]
     | .scrap => [20]
   let spec (e : TypeEntry) : List Byte :=
     flag e.valid ++ (match e.size with | .small => [0] | .large => [1]) ++ two e.ptest ++ one e.window ++ two e.overpressure ++
       two e.ratioLimit ++ two (e.ree.getD 0) ++ two e.massLoss ++ two e.massGain ++ one e.interval ++ one e.programStart ++
       [e.suffix.getD 0] ++ (match e.reference with | some x => two x.expected ++ two x.tolerance | none => [0, 0, 0, 0])
   (∀ r : Record, r.viewBytes =
     one r.slot ++ four r.serial ++ one r.typeCode ++ one (stateCode r.state) ++ flag r.releasePending ++
       present 1 (r.heldCause.map fun x => one (heldCode x)) ++
       present 1 (r.owner.map one) ++ present 1 (r.returnCondemned.map flag) ++
       two r.tare ++ one r.lastYear ++ one r.lastMonth ++
       present 2 (r.mass.map two) ++ present 1 (r.findings.map fun x => one x.length ++ x.flatMap one) ++
       present 1 (r.jacket.map fun x => one x.val) ++ one r.countedInvalids ++ one r.attempts ++
       present 2 (r.verdict.map verdict) ++
       date r.verdictDate ++
       present 16 (r.lastResult.map result) ++
       one r.owedOrders.length ++ r.owedOrders.flatMap order ++
       flag r.resultOwed ++ present 2 (r.stampProgress.map fun x => one x.1 ++ one x.2) ++
       spec r.spec) ∧
   (∀ (c : Controller) (p : Nat), c.listBytes p =
     one (lineCode c.line.state) ++ one (lineCode c.line.holdFrom) ++ flag c.line.causeLineHold ++ flag c.line.causeRing ++
       date c.line.date ++ one c.records.length ++ one p ++ one (min 8 (c.records.length - p)) ++
       ((c.records.drop p).take 8).flatMap fun r => four r.serial ++ one (stateCode r.state)))

/-- Writing back what TABLE_READ gives loses nothing: the record form of a valid entry that keeps the ranges of its table reads back as that entry. -/
def Obligations.TableRecordsReadBack : Prop :=
  (∀ e : TypeEntry, e.valid = true → e.fieldsInRange = true → (readTypeRecord e.bytes).bind TypeRecord.entry? = some e) ∧
  (∀ w : Window, w.base < 4294967296 → w.k ≤ 255 → w.owner ≤ 255 → readWindow w.bytes = some w) ∧
  (∀ a : Action, (readDefect (field1 a.code)).bind actionOfCode = some a) ∧
  (∀ b : Block, b.fieldsOk = true → (readBlockRecord b.bytes).bind BlockRecord.block? = some b) ∧
  (∀ r : Role, (readStationRecord r.bytes).bind StationRecord.role? = some r)

/-- JACKET_VIEW in mode LIVE answers with the jacket as it stands; FROZEN_FIRST captures the views of all eight jackets, sets the pointer and answers
with the view it names; FROZEN_NEXT advances the pointer, from 7 to 0, and answers with the captured view there, or is refused with NO_SNAPSHOT.
A jacket outside 0 to 7 is BAD_INDEX and leaves the buffer. The buffer is empty after power-on. The data of a view are the jacket's number, its state
with its qualifier, its block, the records remaining, the samples, the last means, the serials, the sample age, the three pairs of readings, the
early-end cause and the verification fields, each in its one, two or four bytes. -/
def Obligations.JacketViewsAnswer : Prop :=
  (∀ address, (Controller.powerOn address).responder.frozen = none) ∧
  (∀ (s : State) (h : Header), s.part.Takes h 3 →
    (∀ n : JacketNo,
      ∃ t : Controller, exec (.jacketView h [0, BitVec.ofNat 8 n.val]) s = .next (s.withPart t) ∧
        s.part.OnlyAnswers t (manageFrame h [4, 0, BitVec.ofNat 8 n.val]).markTaken.wire ∧
        t.responder.frozen = s.part.responder.frozen ∧ t.Replied (replyTo h 4 none (s.part.viewOf n).bytes)) ∧
    (∀ n : JacketNo,
      ∃ (t : Controller) (f : FrozenViews), exec (.frozenFirst h [BitVec.ofNat 8 n.val]) s = .next (s.withPart t) ∧
        s.part.OnlyAnswers t (manageFrame h [4, 1, BitVec.ofNat 8 n.val]).markTaken.wire ∧
        t.responder.frozen = some f ∧ f.pointer = n ∧ (∀ m : JacketNo, f.views.get m = s.part.viewOf m) ∧
        t.Replied (replyTo h 4 none (s.part.viewOf n).bytes)) ∧
    (∀ number : Byte, 7 < number.toNat →
      ∃ t : Controller, exec (.frozenFirst h [number]) s = .next (s.withPart t) ∧
        s.part.OnlyAnswers t (manageFrame h [4, 1, number]).markTaken.wire ∧
        t.responder.frozen = s.part.responder.frozen ∧ t.Replied (replyTo h 4 (some .badIndex) [])) ∧
    (∀ f, s.part.responder.frozen = some f →
      ∃ (t : Controller) (n : JacketNo), exec (.frozenNext h []) s = .next (s.withPart t) ∧
        n.val = (if f.pointer.val = 7 then 0 else f.pointer.val + 1) ∧ t.responder.frozen = some { f with pointer := n } ∧
        s.part.OnlyAnswers t (manageFrame h [4, 2]).markTaken.wire ∧ t.Replied (replyTo h 4 none (f.views.get n).bytes)) ∧
    (s.part.responder.frozen = none →
      ∃ t : Controller, exec (.frozenNext h []) s = .next (s.withPart t) ∧ t.responder.frozen = none ∧
        t.Replied (replyTo h 4 (some .noSnapshot) []))) ∧
  ∀ (c : Controller) (n : JacketNo),
    let j := c.jacket n
    let v := c.verif n
    let one (x : Nat) : List Byte := [BitVec.ofNat 8 x]
    let two (x : Nat) : List Byte := one (x / 256) ++ one x
    let four (x : Nat) : List Byte := two (x / 65536) ++ two x
    let present (width : Nat) (x : Option (List Byte)) : List Byte := (x.map ([1] ++ ·)).getD (List.replicate (width + 1) 0)
    let pair (x : Option ReadingPair) : List Byte := present 4 (x.map fun y => two y.first ++ two y.second)
    let most := if (c.currentBlock n).maxRecords = 0 then 64 else (c.currentBlock n).maxRecords
    let remaining := match j.state with
      | .running .zero | .running .hold | .running .vent => most - j.recordsCompleted
      | _ => 0
    let state : List Byte := match j.state with
      | .disabled => [0, 0]
      | .idle => [1, 0]
      | .awaiting => [2, 0]
      | .running k => one 3 ++ one ([BlockKind.zero, .ramp, .hold, .vent, .dwell].idxOf k)
      | .recovering k => one 4 ++ one ([RecoverReason.early, .hold, .abort, .restart].idxOf k)
      | .heldVented => [5, 0]
      | .unloading => [6, 0]
      | .fault k => one 7 ++ one ([FaultCause.misroute, .station, .silent, .ventTimeout, .suspect].idxOf k)
    (c.viewOf n).bytes =
      one n.val ++ state ++ one j.currentBlock ++ one remaining ++ one j.acc.samples ++
        present 6 (j.lastMeans.map fun x => two x.level ++ two x.pressure ++ two x.temperature) ++
        present 4 (j.awaited.map four) ++ present 4 (j.loaded.map four) ++ two j.sampleAge ++
        pair j.zero ++ pair j.hold ++ pair j.vent ++
        present 1 (j.earlyEnd.map fun x => one ([EarlyCause.overpressure, .leak, .unstable, .timeout].idxOf x)) ++
        (if v.verified then [1] else [0]) ++ present 4 (v.date.map fun d => two d.year ++ one d.month ++ one d.day) ++ one v.count

/-! ### Frames: what commands leave alone -/

/-- A station report, a timer's command and a return leave the tables, the plant date, the items, the hold causes and the hold-from state, the latched
address, the ring status, the receiver's lock, the time base, the transmitter, the sequence counter, the streak count and the frozen views as they
are. A station report adds at most its own frame, as it came, to the forward buffer; the others add nothing. What only one command changes: but for
POWER_ON, no command changes the latched address; but for commands that carry a MANAGE frame, none changes a table, the plant date, an item or the
frozen views; but for the two of the transmitter, none changes the transmitter, the sequence counter or the streak count. That no command changes the
time base, which advances on an empty queue alone, is the model's choice (log entry 3). -/
def Obligations.WhatCommandsLeaveAlone : Prop :=
  (let kept (c d : Controller) : Prop :=
     d.tables = c.tables ∧ d.line.date = c.line.date ∧ d.line.items = c.line.items ∧ d.line.holdFrom = c.line.holdFrom ∧
       d.line.causeLineHold = c.line.causeLineHold ∧ d.line.causeRing = c.line.causeRing ∧
       (d.line.state = c.line.state ∨ (c.line.state = .stopping ∧ d.line.state = .stopped ∧ d.records = [])) ∧
       d.ring.nodeAddress = c.ring.nodeAddress ∧ d.ring.status = c.ring.status ∧ d.ring.locked = c.ring.locked ∧
       d.ring.lockCount = c.ring.lockCount ∧ d.ring.clock = c.ring.clock ∧ d.ring.transmitter = c.ring.transmitter ∧
       d.ring.sequence = c.ring.sequence ∧ d.ring.streak = c.ring.streak ∧ d.responder.frozen = c.responder.frozen
   ∀ (s t : State) (h : Header) (p : List Byte) (n : JacketNo),
     (∀ (i : Instr) (kind : Byte),
       (i = .entryTag h p ∧ kind = 1) ∨ (i = .massReading h p ∧ kind = 2) ∨ (i = .visualFindings h p ∧ kind = 3) ∨
         (i = .jacketArrival h p ∧ kind = 4) ∨ (i = .jacketSample h p ∧ kind = 5) ∨ (i = .jacketClear h p ∧ kind = 6) ∨
         (i = .stampReport h p ∧ kind = 7) ∨ (i = .scrapReport h p ∧ kind = 8) →
       exec i s = .next t → kept s.part t.part ∧
         (t.part.ring.forward = s.part.ring.forward ∨
           t.part.ring.forward = s.part.ring.forward ++ [({ header := h, kind, payload := p } : Frame).wire])) ∧
     (∀ i : Instr, (i = .returnTimeout ∨ i = .blockTimeLimit n ∨ i = .dwellEnd n ∨ i = .sampleAgeLimit n ∨ i = .ventLimit n) →
       exec i s = .next t → kept s.part t.part ∧ t.part.ring.forward = s.part.ring.forward) ∧
     (∀ (destination kind sequence trailer : Byte), s.part.bypass = false →
       exec (.returnMatching destination kind sequence p trailer) s = .next t →
         kept s.part t.part ∧ t.part.ring.forward = s.part.ring.forward)) ∧
  (∀ (i : Instr) (s t : State), exec i s = .next t → isPowerOn i = false →
     t.part.ring.nodeAddress = s.part.ring.nodeAddress ∧ t.part.ring.clock = s.part.ring.clock ∧
     ((i ≠ .transmitterStart ∧ i ≠ .transmissionComplete) →
       t.part.ring.transmitter = s.part.ring.transmitter ∧ t.part.ring.sequence = s.part.ring.sequence ∧
         t.part.ring.streak = s.part.ring.streak) ∧
     ((i ≠ .ringDown ∧ i ≠ .ringUp) → t.part.ring.status = s.part.ring.status) ∧
     ((i ≠ .rxLockLost ∧ i ≠ .rxLockRegained) →
       t.part.ring.locked = s.part.ring.locked ∧ t.part.ring.lockCount = s.part.ring.lockCount) ∧
     ((i = .holdAsserted ∨ i = .holdReleased ∨ i = .rxLockLost ∨ i = .rxLockRegained ∨ i = .ringDown ∨ i = .ringUp ∨
         i = .transmitterStart ∨ i = .transmissionComplete) →
       t.part.tables = s.part.tables ∧ t.part.line.date = s.part.line.date ∧ t.part.line.items = s.part.line.items ∧
         t.part.verification = s.part.verification ∧ t.part.responder.frozen = s.part.responder.frozen) ∧
     (∀ (h : Header) (p : List Byte),
       (i = .start h p ∨ i = .stop h p ∨ i = .resume h p ∨ i = .restart h p ∨ i = .jacketEnable h p ∨
           i = .jacketDisable h p ∨ i = .jacketAbort h p ∨ i = .release h p ∨ i = .setNoticeEnables h p ∨
           i = .testNotice h p) →
         t.part.tables = s.part.tables ∧ t.part.line.date = s.part.line.date ∧ t.part.line.items = s.part.line.items))

/-- The register stays sound: at most 64 records, each with a serial and a slot of its own. What admission fixed stays: after any command but
POWER_ON every record of the list is one that stood there, with the same slot, serial, type, specification copy, owner, flag, tare and dates, or
a new one whose serial no record carried. -/
def Obligations.RegisterStaysSound : Prop :=
  (KeptByEveryStep Controller.RegisterSound) ∧
  (∀ (i : Instr) (s t : State), exec i s = .next t → isPowerOn i = false →
     ∀ r' ∈ t.part.records, (∃ r ∈ s.part.records, r.SameIdentity r') ∨ s.part.recordOf r'.serial = none)

/-! ### Laws every step keeps -/

/-- The bounds of the Ring Port's lists hold after every step. The outstanding list stays numbered in the order of its frames' starts, at most 16
entries long, so that no two entries carry the same number. -/
def Obligations.RingListsStayBounded : Prop :=
  (KeptByEveryStep Controller.QueueBounded ∧ KeptByEveryStep Controller.ForwardBounded) ∧
  (KeptByEveryStep Controller.OutstandingNumbered ∧
     ∀ c : Controller, c.OutstandingNumbered → (c.ring.outstanding.map OutEntry.sequence).Nodup)

/-- While the line is STOPPED the register is empty, and while the plant date is unset the line has not been started. While the line is HOLDING the
queue holds no frame of the hold set, so that no gate, stamp or scrap order and no command but VENT starts. -/
def Obligations.LineStaysSound : Prop :=
  (KeptByEveryStep Controller.StoppedEmpty ∧ KeptByEveryStep Controller.DateSet) ∧
  (KeptByEveryStep Controller.HoldQuiet)

/-- The infeed mark's reasons stay the conditions that fail, and it is RELEASED exactly when none does. -/
def Obligations.InfeedMarkFollowsConditions : Prop :=
  KeptByEveryStep Controller.Judged

/-- A set verified flag keeps the plant date as its date, and the counts stay within 0 to 3. A jacket in DISABLED or IDLE never holds a serial or
serves a record. The law of R83 holds after every step: a ROUTED record and an AWAITING jacket, a TESTING record and a RUNNING, RECOVERING or
HELD_VENTED jacket, an UNLOADING jacket and its record go together, each naming the other, and no two such records name one jacket. -/
def Obligations.JacketsStaySound : Prop :=
  (KeptByEveryStep Controller.VerifiedToday ∧ KeptByEveryStep Controller.CountsBounded) ∧
  (KeptByEveryStep Controller.JacketsQuiet) ∧
  (KeptByEveryStep Controller.Paired ∧
     ∀ c : Controller, c.Paired → ∀ r ∈ c.records, ∀ x ∈ c.records, (r.state = .routed ∨ r.state = .testing) →
       (x.state = .routed ∨ x.state = .testing) →
       (∃ n : JacketNo, r.jacket = some n ∧
         (((c.jacket n).state = .awaiting ∧ (c.jacket n).awaited = some r.serial) ∨
           (((c.jacket n).state.pressing = true ∨ (c.jacket n).state = .heldVented) ∧ (c.jacket n).loaded = some r.serial))) ∧
       (r.jacket = x.jacket → r = x))

/-- The tables stay sound: windows aligned and apart, one node for each role and jacket number and none at 0, at 63 and at the part's own address,
types and blocks within their ranges; and every configuration item stays in its range. No step block that lies in the program chain of a jacket
in AWAITING, RUNNING, RECOVERING or HELD_VENTED changes in any step but POWER_ON. -/
def Obligations.TablesStaySound : Prop :=
  (KeptByEveryStep (fun c => c.tables.WindowsSound) ∧ KeptByEveryStep Controller.MapSound ∧
     KeptByEveryStep (fun c => c.tables.TypesSound) ∧ KeptByEveryStep (fun c => c.tables.BlocksSound) ∧
     KeptByEveryStep fun c => c.line.items.Sound) ∧
  (∀ (i : Instr) (s t : State) (k : Fin 96), exec i s = .next t → isPowerOn i = false →
     s.part.blockProtected k.val = true → t.part.tables.blocks.get k = s.part.tables.blocks.get k)

/-- In bypass every block but the receiver, the forward buffer and the transmitter stays at its power-on state. -/
def Obligations.BypassStaysQuiet : Prop :=
  KeptByEveryStep Controller.BypassQuiet

/-- The state after reset satisfies every law that the steps keep. -/
def Obligations.ResetIsSound : Prop :=
  let c := State.reset.part
  c.QueueBounded ∧ c.ForwardBounded ∧ c.OutstandingNumbered ∧ c.RegisterSound ∧ c.StoppedEmpty ∧ c.DateSet ∧ c.HoldQuiet ∧
    c.Judged ∧ c.VerifiedToday ∧ c.CountsBounded ∧ c.JacketsQuiet ∧ c.Paired ∧ c.tables.WindowsSound ∧ c.MapSound ∧
    c.tables.TypesSound ∧ c.tables.BlocksSound ∧ c.line.items.Sound ∧ c.BypassQuiet
end

