-- ==== Sys2Proof/Laws/Changes.lean ====
section
/-! SUPPORT. What the shared operations can do, said once: each is a chain of small changes, so a property that every small change keeps is kept by
every operation; and a judged infeed mark is left judged. The tables, the ring's status, clock, counters and transmitter, the plant date and the configuration items are out of their reach. -/
namespace Sys2Proof.Machine

/-- One small change. -/
inductive Change : Controller → Controller → Prop
  | place {c : Controller} (b : Body) (o : Owner) (k m : Bool) (h : c.hasRoom b = true) : Change c (c.enqueue b o k m)
  | thin {c : Controller} (q : List QueueEntry) (h : q.Sublist c.ring.queue) : Change c (c.setQueue q)
  | relabelQueue {c : Controller} (f : QueueEntry → QueueEntry) (h : ∀ e, (f e).body = e.body) :
      Change c (c.setQueue (c.ring.queue.map f))
  | relabelOut {c : Controller} (f : OutEntry → OutEntry)
      (h : ∀ e, (f e).sequence = e.sequence ∧ (f e).start = e.start ∧ (f e).body = e.body) :
      Change c (c.setOutstanding (c.ring.outstanding.map f))
  | mark {c : Controller} (m : InfeedMark) : Change c (c.setMark m)
  | notice {c : Controller} (cls : NoticeClass) (f : Notice → Notice) : Change c (c.updNotice cls f)
  | jacket {c : Controller} (n : JacketNo) (f : Jacket → Jacket) (h : ∀ j : Jacket, j.Quiet → (f j).Quiet) :
      Change c (c.updJacket n f)
  | buffer {c : Controller} (b : ReplyBuffer) : Change c (c.setBuffer b)
  | verify {c : Controller} (n : JacketNo) (o : EvalOutcome) : Change c (c.updVerif n fun v => v.take c.line.date o)
  | record {c : Controller} (slot : Nat) (f : Record → Record) (h : ∀ r : Record, r.SameIdentity (f r)) :
      Change c (c.updRecord slot f)
  | drop {c : Controller} (slot : Nat) : Change c { c with records := c.records.filter fun r => r.slot != slot }
  | drained {c : Controller} (h : c.line.state = .stopping ∧ c.records = []) : Change c (c.setLineState .stopped)

/-- A chain of small changes. -/
inductive Changes : Controller → Controller → Prop
  | refl {c : Controller} : Changes c c
  | tail {a b c : Controller} (h : Changes a b) (k : Change b c) : Changes a c

theorem Change.one {a b : Controller} (h : Change a b) : Changes a b := .tail .refl h

theorem Changes.trans {a b c : Controller} (h : Changes a b) (k : Changes b c) : Changes a c := by
  induction k with
  | refl => exact h
  | tail _ k ih => exact .tail ih k

/-- A property that every small change keeps is kept by a chain of them. -/
theorem Changes.keep {p : Controller → Prop} (hp : ∀ a b, Change a b → p a → p b) {a b : Controller} (h : Changes a b) :
    p a → p b := by
  induction h with
  | refl => exact id
  | tail _ k ih => exact fun ha => hp _ _ k (ih ha)

/-- What no small change alters is the same after a chain of them. -/
theorem Changes.same {α : Type} {f : Controller → α} (hf : ∀ a b, Change a b → f b = f a) {a b : Controller}
    (h : Changes a b) : f b = f a := by
  induction h with
  | refl => rfl
  | tail _ k ih => exact (hf _ _ k).trans ih

/-! ### Placing, the mark, the notices -/

theorem putNotice_changes (c : Controller) (cls : NoticeClass) (h : c.noticePlaceable cls = true) :
    Changes c (c.putNotice cls) := by
  have hr : c.hasRoom (c.noticeBody cls) = true := by
    unfold Controller.noticePlaceable at h; simp at h; exact h.2
  unfold Controller.putNotice
  exact Changes.trans (b := c.enqueue _ _ _ _) (Change.place _ _ _ _ hr).one (Change.notice _ _).one

theorem markRaise_changes (c : Controller) (cls : NoticeClass) (s k : Nat) (t : Bool) :
    Changes c (c.markRaise cls s k t) := (Change.notice _ _).one

theorem refreshReasons_changes (c : Controller) : Changes c c.refreshReasons := (Change.mark _).one

theorem offerInfeed_changes (c : Controller) (o : InfeedOrder) (g : Origin) : Changes c (c.offerInfeed o g) := by
  unfold Controller.offerInfeed
  split
  · next h => exact (Change.place _ _ _ _ h).one.trans (Change.mark _).one
  · exact (Change.mark _).one

theorem flipFrame_changes (c : Controller) (freed : Bool) (v : MarkValue) : Changes c (c.flipFrame freed v) := by
  have make : Changes c (if freed then c.setMark { c.mark with owed := some { order := v.order, origin := .fresh } }
      else c.offerInfeed v.order .fresh) := by
    split
    · exact (Change.mark _).one
    · exact offerInfeed_changes _ _ _
  unfold Controller.flipFrame
  dsimp only
  split
  · exact make
  · split
    · exact .refl
    · split
      · exact (Change.mark _).one
      · exact make

theorem raiseInfeedHeld_changes (c : Controller) (k : Nat) : Changes c (c.raiseInfeedHeld k) := by
  unfold Controller.raiseInfeedHeld
  dsimp only
  split
  · next h => exact ((markRaise_changes _ _ _ _ _).trans (putNotice_changes _ _ h)).trans (refreshReasons_changes _)
  · exact markRaise_changes _ _ _ _ _

theorem judge_changes (freed : Bool) (c : Controller) : Changes c (c.judge freed) := by
  unfold Controller.judge
  dsimp only
  split
  · exact (Change.mark _).one
  · have h := (Change.mark (c := c) { c.mark with reasons := c.infeedReasons, value := c.infeedReasons.wanted }).one.trans
      (flipFrame_changes _ freed c.infeedReasons.wanted)
    split
    · exact h.trans (raiseInfeedHeld_changes _ _)
    · exact h

/-! ### The infeed mark is judged -/

/-- A mark that is HELD stays wanted HELD while no condition that failed holds again. -/
theorem wanted_of_held {r r' : InfeedReasons} (h : r.wanted = .held) (h1 : r'.notRunning = r.notRunning)
    (h2 : r'.registerFull = r.registerFull) (h3 : r.queueFull = true → r'.queueFull = true) : r'.wanted = .held := by
  unfold InfeedReasons.wanted at *
  grind

theorem normalRoom_append (q : List QueueEntry) (e : QueueEntry) (h : normalRoom q = false) : normalRoom (q ++ [e]) = false := by
  unfold normalRoom normalCount at *
  rw [List.countP_append, List.length_append]
  rw [Bool.and_eq_false_iff, decide_eq_false_iff_not, decide_eq_false_iff_not] at *
  omega

theorem infeedReasons_enqueue_own (c : Controller) (o : InfeedOrder) (k : Bool) :
    (c.enqueue (.infeed o) .infeed k).infeedReasons = c.infeedReasons := by
  simp [Controller.infeedReasons, Controller.enqueue, Controller.setQueue]
  rfl

theorem offerInfeed_judged (c : Controller) (o : InfeedOrder) (g : Origin) (h : c.Judged) : (c.offerInfeed o g).Judged := by
  unfold Controller.offerInfeed
  split
  · have e := infeedReasons_enqueue_own c o false
    unfold Controller.Judged at *
    exact ⟨h.1.trans e.symm, h.2.trans (by rw [← e]; rfl)⟩
  · exact h

theorem flipFrame_judged (c : Controller) (freed : Bool) (v : MarkValue) (h : c.Judged) : (c.flipFrame freed v).Judged := by
  have make : (if freed then c.setMark { c.mark with owed := some { order := v.order, origin := .fresh } }
      else c.offerInfeed v.order .fresh).Judged := by
    split
    · exact h
    · exact offerInfeed_judged _ _ _ h
  unfold Controller.flipFrame
  dsimp only
  split
  · exact make
  · split
    · exact h
    · split
      · exact h
      · exact make

theorem flipFrame_mark (c : Controller) (freed : Bool) (v : MarkValue) : (c.flipFrame freed v).mark.value = c.mark.value := by
  unfold Controller.flipFrame Controller.offerInfeed
  dsimp only
  (repeat' split) <;> rfl

theorem raiseInfeedHeld_judged (c : Controller) (k : Nat) (h : c.Judged) (v : c.mark.value = .held) :
    (c.raiseInfeedHeld k).Judged := by
  unfold Controller.raiseInfeedHeld
  dsimp only
  split
  · refine ⟨rfl, ?_⟩
    refine Eq.trans (b := MarkValue.held) v (Eq.symm ?_)
    refine wanted_of_held (r := c.infeedReasons) (h.2.symm.trans v) rfl rfl ?_
    intro hq
    simp only [Controller.infeedReasons, Bool.not_eq_true'] at hq ⊢
    simp only [Controller.refreshReasons, Controller.setMark, Controller.putNotice, Controller.updNotice, Controller.enqueue,
      Controller.setQueue, Controller.markRaise, List.filter_append]
    exact normalRoom_append _ _ hq
  · exact h

theorem judge_judged (freed : Bool) (c : Controller) : (c.judge freed).Judged := by
  unfold Controller.judge
  dsimp only
  split
  · next h => exact ⟨rfl, h⟩
  · have h : ((c.setMark { c.mark with reasons := c.infeedReasons, value := c.infeedReasons.wanted }).flipFrame freed
        c.infeedReasons.wanted).Judged := flipFrame_judged _ _ _ ⟨rfl, rfl⟩
    split
    · next g => exact raiseInfeedHeld_judged _ _ h ((flipFrame_mark _ _ _).trans g.1)
    · exact h

/-! ### Shared operations -/

/-- What a shared operation does: a chain of small changes, which leaves a judged infeed mark judged. -/
structure Settles (c d : Controller) : Prop where
  changes : Changes c d
  judged : c.Judged → d.Judged

theorem Settles.refl {c : Controller} : Settles c c := ⟨.refl, id⟩

theorem Settles.trans {a b c : Controller} (h : Settles a b) (k : Settles b c) : Settles a c :=
  ⟨h.changes.trans k.changes, fun j => k.judged (h.judged j)⟩

/-- A small change the infeed mark is not judged by. -/
theorem Change.settles {a b : Controller} (h : Change a b) (j : a.Judged → b.Judged := by exact fun h => h) : Settles a b :=
  ⟨h.one, j⟩

/-- Changes followed by a judgment of the infeed mark. -/
theorem Changes.judge {a b : Controller} (h : Changes a b) (freed : Bool) : Settles a (b.judge freed) :=
  ⟨h.trans (judge_changes _ _), fun _ => judge_judged _ _⟩

theorem judge_settles (freed : Bool) (c : Controller) : Settles c (c.judge freed) := Changes.judge .refl freed

theorem offerInfeed_settles (c : Controller) (o : InfeedOrder) (g : Origin) : Settles c (c.offerInfeed o g) :=
  ⟨offerInfeed_changes _ _ _, offerInfeed_judged _ _ _⟩

theorem markRaise_settles (c : Controller) (cls : NoticeClass) (s k : Nat) (t : Bool) : Settles c (c.markRaise cls s k t) :=
  (Change.notice _ _).settles

theorem foldl_settles {α : Type} {f : Controller → α → Controller} (h : ∀ c a, Settles c (f c a)) (l : List α) :
    ∀ c, Settles c (l.foldl f c) := by
  induction l with
  | nil => exact fun _ => .refl
  | cons a l ih => exact fun c => (h c a).trans (ih _)

theorem foldr_settles {α : Type} {f : α → Controller → Controller} (h : ∀ c a, Settles c (f a c)) (l : List α) :
    ∀ c, Settles c (l.foldr f c) := by
  induction l with
  | nil => exact fun _ => .refl
  | cons a l ih => exact fun c => (ih c).trans (h _ a)

theorem updJacket_settles (c : Controller) (n : JacketNo) (f : Jacket → Jacket)
    (h : ∀ j : Jacket, j.Quiet → (f j).Quiet := by
      grind [Jacket.Quiet, Jacket.emptied, Jacket.beginBlock, Jacket.beginProgram, Jacket.countRecord]) :
    Settles c (c.updJacket n f) := (Change.jacket n f h).settles

theorem offerNotice_settles (c : Controller) (cls : NoticeClass) : Settles c (c.offerNotice cls) := by
  unfold Controller.offerNotice
  split
  · next h => exact (putNotice_changes _ _ h).judge _
  · exact .refl

theorem raise_settles (c : Controller) (cls : NoticeClass) (s k : Nat) : Settles c (c.raise cls s k) :=
  (markRaise_settles _ _ _ _ _).trans (offerNotice_settles _ _)

theorem offerNotices_settles (c : Controller) : Settles c c.offerNotices := foldl_settles offerNotice_settles _ _

theorem offerCommand_settles (c : Controller) (n : JacketNo) (k : Command) : Settles c (c.offerCommand n k) := by
  unfold Controller.offerCommand
  split
  · next h => exact ((Change.place _ _ _ _ h).one.trans (updJacket_settles _ _ _).changes).judge _
  · exact updJacket_settles _ _ _

theorem offerOwedCommand_settles (u : Bool) (c : Controller) (n : JacketNo) : Settles c (c.offerOwedCommand u n) := by
  unfold Controller.offerOwedCommand
  split
  · split
    · exact offerCommand_settles _ _ _
    · exact .refl
  · exact .refl

theorem offerOwedInfeed_settles (c : Controller) (o : InfeedOrder) : Settles c (c.offerOwedInfeed o) := by
  unfold Controller.offerOwedInfeed
  split
  · split
    · exact .refl
    · split
      · exact (Change.mark _).settles
      · split
        · next h => exact ((Change.place _ _ _ _ h).one.trans (Change.mark _).one).judge _
        · exact .refl
  · exact .refl

theorem offerReply_settles (c : Controller) : Settles c c.offerReply := by
  unfold Controller.offerReply
  split
  · split
    · next h => exact ((Change.place _ _ _ _ h).one.trans (Change.buffer _).one).judge _
    · exact .refl
  · exact .refl

theorem updRecord_settles (c : Controller) (slot : Nat) (f : Record → Record) (h : ∀ r : Record, r.SameIdentity (f r)) :
    Settles c (c.updRecord slot f) :=
  (Change.record slot f h).settles fun j => by
    simpa [Controller.Judged, Controller.infeedReasons, Controller.updRecord] using j

theorem offerOrders_settles (slot : Nat) (serial : Serial) (l : List Order) :
    ∀ c : Controller, Settles c (c.offerOrders slot serial l) := by
  induction l with
  | nil => exact fun _ => .refl
  | cons o rest ih =>
    intro c
    unfold Controller.offerOrders
    split
    · next h =>
      refine Settles.trans ?_ (ih _)
      refine Changes.judge ?_ _
      refine Changes.trans (updRecord_settles c slot _ fun _ => by simp [Record.SameIdentity]).changes (Change.place _ _ _ _ ?_).one
      exact h
    · exact .refl

theorem putResult_settles (c : Controller) (slot : Nat) (serial : Serial) (r : LastResult)
    (h : c.hasRoom (.testResult serial r) = true) : Settles c (c.putResult slot serial r) := by
  unfold Controller.putResult
  refine Changes.judge ?_ _
  refine Changes.trans ?_ (updRecord_settles _ _ _ fun _ => by simp [Record.SameIdentity]).changes
  exact (Change.place _ _ _ _ h).one

/-! ### Withdrawal, removal, arbitration -/

theorem eraseP_sublist (p : QueueEntry → Bool) (q : List QueueEntry) : (q.eraseP p).Sublist q := List.eraseP_sublist

theorem withdrawLoop_settles {arb : Controller → Controller} (ha : ∀ c, Settles c (arb c)) (p : QueueEntry → Bool)
    (n : Nat) : ∀ c, Settles c (Controller.withdrawLoop arb p n c) := by
  induction n with
  | zero => exact fun _ => .refl
  | succ n ih =>
    intro c
    unfold Controller.withdrawLoop
    split
    · exact (((Change.thin _ (eraseP_sublist p _)).one.judge _).trans (ha _)).trans (ih _)
    · exact .refl

theorem finishDrain_settles (c : Controller) : Settles c c.finishDrain := by
  unfold Controller.finishDrain
  split
  · next h => exact ((Change.drained h).one.trans (raise_settles _ _ _ _).changes).judge _
  · exact .refl

theorem removeWith_settles {arb : Controller → Controller} (ha : ∀ c, Settles c (arb c)) (slot : Nat) (c : Controller) :
    Settles c (Controller.removeWith arb slot c) := by
  unfold Controller.removeWith
  dsimp only
  refine Settles.trans ?_ (finishDrain_settles _)
  refine Changes.judge ?_ _
  refine Changes.trans ?_ (withdrawLoop_settles ha _ _ _).changes
  refine Changes.trans (Change.drop slot).one ?_
  refine Changes.trans (Change.relabelQueue (QueueEntry.disownResult slot) ?_).one (Change.relabelOut (OutEntry.disown slot) ?_).one
  · intro e; unfold QueueEntry.disownResult; split <;> rfl
  · intro e; unfold OutEntry.disown; split <;> exact ⟨rfl, rfl, rfl⟩

theorem offerRecordWith_settles {arb : Controller → Controller} (ha : ∀ c, Settles c (arb c)) (c : Controller) (slot : Nat) :
    Settles c (Controller.offerRecordWith arb c slot) := by
  unfold Controller.offerRecordWith
  split
  · exact .refl
  · split
    · split
      · exact .refl
      · split
        · next h =>
          dsimp only
          split
          · exact (putResult_settles _ _ _ _ h).trans (removeWith_settles ha _ _)
          · exact (putResult_settles _ _ _ _ h).trans (offerOrders_settles _ _ _ _)
        · exact .refl
    · exact offerOrders_settles _ _ _ _

theorem arbitrateWith_settles {inner : Controller → Controller} (hi : ∀ c, Settles c (inner c)) (c : Controller) :
    Settles c (Controller.arbitrateWith inner c) := by
  unfold Controller.arbitrateWith
  dsimp only
  refine Settles.trans ?_ (offerNotices_settles _)
  refine Settles.trans ?_ (offerReply_settles _)
  refine Settles.trans ?_ (offerOwedInfeed_settles _ _)
  refine Settles.trans ?_ (foldl_settles (offerOwedCommand_settles false) _ _)
  refine Settles.trans ?_ (foldl_settles (offerRecordWith_settles hi) _ _)
  refine Settles.trans ?_ (offerOwedInfeed_settles _ _)
  exact foldl_settles (offerOwedCommand_settles true) _ _

theorem arbitrateDepth_settles (n : Nat) : ∀ c, Settles c (Controller.arbitrateDepth n c) := by
  induction n with
  | zero => exact fun _ => .refl
  | succ n ih => exact fun c => arbitrateWith_settles ih c

theorem arbitrate_settles (c : Controller) : Settles c c.arbitrate := arbitrateDepth_settles _ _

theorem afterFreeing_settles (c : Controller) : Settles c c.afterFreeing :=
  (judge_settles _ _).trans (arbitrate_settles _)

theorem withdraw_settles (c : Controller) (p : QueueEntry → Bool) : Settles c (c.withdraw p) :=
  withdrawLoop_settles arbitrate_settles _ _ _

theorem remove_settles (c : Controller) (slot : Nat) : Settles c (c.remove slot) :=
  removeWith_settles arbitrate_settles _ _

theorem offerRecord_settles (c : Controller) (slot : Nat) : Settles c (c.offerRecord slot) :=
  offerRecordWith_settles arbitrate_settles _ _

theorem askRelease_settles (c : Controller) (slot : Nat) : Settles c (c.askRelease slot) := by
  unfold Controller.askRelease
  split
  · exact .refl
  · split
    · exact updRecord_settles _ _ _ fun _ => by simp [Record.SameIdentity]
    · exact remove_settles _ _

theorem makeOrders_settles (c : Controller) (slot : Nat) (l : List Order) : Settles c (c.makeOrders slot l) :=
  (updRecord_settles _ _ _ fun _ => by simp [Record.SameIdentity]).trans (offerRecord_settles _ _)

theorem cancelOrders_settles (c : Controller) (slot : Nat) : Settles c (c.cancelOrders slot) := by
  unfold Controller.cancelOrders
  dsimp only
  refine Settles.trans ?_ (withdraw_settles _ _)
  refine Settles.trans (updRecord_settles _ _ _ fun _ => by simp [Record.SameIdentity])
    (Change.relabelOut (OutEntry.cancel slot) ?_).settles
  intro e; unfold OutEntry.cancel; split <;> exact ⟨rfl, rfl, rfl⟩

theorem holdRecord_settles (c : Controller) (slot : Nat) (h : HeldCause) : Settles c (c.holdRecord slot h) := by
  unfold Controller.holdRecord
  split
  · exact .refl
  · split
    · exact .refl
    · exact (updRecord_settles _ _ _ fun _ => by simp [Record.SameIdentity]).trans (cancelOrders_settles _ _)

theorem stray_settles (c : Controller) (role : Role) (serial : Serial) (k : StrayCause) :
    Settles c (c.stray role serial k) := raise_settles _ _ _ _

theorem divert_settles (c : Controller) (slot : Nat) (v : Verdict) (lane : GateDest) : Settles c (c.divert slot v lane) :=
  (updRecord_settles _ _ _ fun _ => by simp [Record.SameIdentity]).trans (makeOrders_settles _ _ _)

/-! ### The assigner -/


theorem assign_settles (c : Controller) (r : Record) (n : JacketNo) : Settles c (c.assign r n) :=
  ((updRecord_settles _ _ _ fun _ => by simp [Record.SameIdentity]).trans (updJacket_settles _ _ _)).trans
    (makeOrders_settles _ _ _)

theorem programFault_settles (c : Controller) (r : Record) : Settles c (c.programFault r) :=
  (divert_settles _ _ _ _).trans (raise_settles _ _ _ _)

theorem jacketPassDepth_settles (k : Nat) : ∀ (c : Controller) (n : JacketNo), Settles c (Controller.jacketPassDepth k c n) := by
  induction k with
  | zero => exact fun _ _ => .refl
  | succ k ih =>
    intro c n
    unfold Controller.jacketPassDepth
    split
    · exact .refl
    · split
      · exact assign_settles _ _ _
      · exact (programFault_settles _ _).trans (ih _ _)

theorem jacketPass_settles (c : Controller) (n : JacketNo) : Settles c (c.jacketPass n) := by
  unfold Controller.jacketPass
  split
  · exact jacketPassDepth_settles _ _ _
  · exact .refl

theorem jacketPasses_settles (c : Controller) : Settles c c.jacketPasses := foldl_settles jacketPass_settles _ _

theorem recordPass_settles (c : Controller) (slot : Nat) : Settles c (c.recordPass slot) := by
  unfold Controller.recordPass
  split
  · split
    · exact .refl
    · split
      · split
        · exact .refl
        · split
          · exact assign_settles _ _ _
          · exact (programFault_settles _ _).trans (jacketPass_settles _ _)
      · exact .refl
  · exact .refl

theorem enterWaiting_settles (c : Controller) (slot : Nat) : Settles c (c.enterWaiting slot) :=
  (updRecord_settles _ _ _ fun _ => by simp [Record.SameIdentity]).trans (recordPass_settles _ _)

/-! ### The jackets -/

theorem dropCommands_settles (c : Controller) (n : JacketNo) (p : Command → Bool) : Settles c (c.dropCommands n p) :=
  (updJacket_settles _ _ _).trans (withdraw_settles _ _)

theorem makeVent_settles (c : Controller) (n : JacketNo) : Settles c (c.makeVent n) :=
  (offerCommand_settles _ _ _).trans (dropCommands_settles _ _ _)

theorem ventInto_settles (c : Controller) (n : JacketNo) (r : RecoverReason) : Settles c (c.ventInto n r) :=
  (makeVent_settles _ _).trans (updJacket_settles _ _ _)

theorem earlyEnd_settles (c : Controller) (n : JacketNo) (k : EarlyCause) : Settles c (c.earlyEnd n k) :=
  (updJacket_settles _ _ _).trans (ventInto_settles _ _ _)

theorem holdServed_settles (c : Controller) (n : JacketNo) : Settles c (c.holdServed n) := by
  unfold Controller.holdServed
  split
  · exact .refl
  · exact (holdRecord_settles _ _ _).trans (raise_settles _ _ _ _)

theorem faultJacket_settles (c : Controller) (n : JacketNo) (k : FaultCause) : Settles c (c.faultJacket n k) := by
  unfold Controller.faultJacket
  dsimp only
  split
  · exact .refl
  · refine Settles.trans ?_ (raise_settles _ _ _ _)
    refine Settles.trans ?_ (dropCommands_settles _ _ _)
    have h := ((updJacket_settles c n fun j => { j with state := .fault k }).trans (holdServed_settles _ n)).trans
      (updJacket_settles _ n fun j => { j with slot := none })
    split
    · exact h.trans (makeVent_settles _ _)
    · exact h

theorem blockCommand_settles (c : Controller) (n : JacketNo) (b : Block) : Settles c (c.blockCommand n b) := by
  unfold Controller.blockCommand
  split
  · exact offerCommand_settles _ _ _
  · exact makeVent_settles _ _
  all_goals exact .refl

theorem enterBlockDepth_settles (k : Nat) : ∀ (c : Controller) (n : JacketNo), Settles c (Controller.enterBlockDepth k c n) := by
  induction k with
  | zero => exact fun _ _ => .refl
  | succ k ih =>
    intro c n
    unfold Controller.enterBlockDepth
    dsimp only
    have h := (updJacket_settles c n (Jacket.beginBlock (c.currentBlock n))).trans (blockCommand_settles _ n (c.currentBlock n))
    split
    · exact (h.trans (updJacket_settles _ _ _)).trans (ih _ _)
    · exact h

theorem enterBlock_settles (c : Controller) (n : JacketNo) : Settles c (c.enterBlock n) := enterBlockDepth_settles _ _ _

theorem startProgram_settles (c : Controller) (n : JacketNo) : Settles c (c.startProgram n) :=
  ((updRecord_settles _ _ _ fun _ => by simp [Record.SameIdentity]).trans (updJacket_settles _ _ _)).trans
    (enterBlock_settles _ _)

theorem unload_settles (c : Controller) (n : JacketNo) (k : OnClear) : Settles c (c.unload n k) :=
  ((updRecord_settles _ _ _ fun _ => by simp [Record.SameIdentity]).trans (updJacket_settles _ _ _)).trans
    (offerCommand_settles _ _ _)

theorem carryOut_settles (c : Controller) (n : JacketNo) (i : Instruction) : Settles c (c.carryOut n i) := by
  unfold Controller.carryOut
  split
  · exact unload_settles _ _ _
  · split
    · exact startProgram_settles _ _
    · exact updJacket_settles _ _ _

theorem verify_settles (c : Controller) (n : JacketNo) (o : EvalOutcome) : Settles c (c.verify n o) := by
  unfold Controller.verify
  dsimp only
  split
  · exact (Change.verify n o).settles.trans (raise_settles _ _ _ _)
  · exact (Change.verify n o).settles

theorem makeResult_settles (c : Controller) (slot : Nat) (serial : Serial) (owed : Bool) :
    Settles c (c.makeResult slot serial owed) := by
  unfold Controller.makeResult
  dsimp only
  refine Settles.trans ?_ (offerRecord_settles _ _)
  refine Settles.trans ?_ (updRecord_settles _ _ _ fun _ => by simp [Record.SameIdentity])
  split
  · exact raise_settles _ _ _ _
  · exact .refl

theorem takeResult_sameIdentity (r : Record) (result : LastResult) (date : Option Date) :
    r.SameIdentity (r.takeResult result date) := by
  unfold Record.takeResult Record.takeOutcome
  split <;> (try split) <;> (try split) <;> exact ⟨rfl, rfl, rfl, rfl, rfl, rfl, rfl, rfl, rfl⟩

theorem evaluate_settles (c : Controller) (n : JacketNo) : Settles c (c.evaluate n) := by
  unfold Controller.evaluate
  split
  · exact .refl
  · dsimp only
    refine Settles.trans ?_ (carryOut_settles _ _ _)
    refine Settles.trans ?_ (makeResult_settles _ _ _ _)
    refine Settles.trans ?_ (verify_settles _ _ _)
    exact updRecord_settles _ _ _ fun r => takeResult_sameIdentity _ _ _

theorem completeBlock_settles (c : Controller) (n : JacketNo) : Settles c (c.completeBlock n) := by
  unfold Controller.completeBlock
  split
  · exact (updJacket_settles _ _ _).trans (enterBlock_settles _ _)
  · exact evaluate_settles _ _

theorem settle_settles (c : Controller) (n : JacketNo) (b : Block) (m : Means) : Settles c (c.settle n b m) := by
  unfold Controller.settle
  split
  · exact (updJacket_settles _ _ _).trans (completeBlock_settles _ _)
  · split
    · dsimp only
      split
      · split
        · exact (updJacket_settles _ _ _).trans (earlyEnd_settles _ _ _)
        · exact (updJacket_settles _ _ _).trans (completeBlock_settles _ _)
      · exact (updJacket_settles _ _ _).trans (completeBlock_settles _ _)
    · exact completeBlock_settles _ _
  · split
    · exact completeBlock_settles _ _
    · exact (updJacket_settles _ _ _).trans (completeBlock_settles _ _)
  all_goals exact .refl

theorem completeRecord_settles (c : Controller) (n : JacketNo) (b : Block) : Settles c (c.completeRecord n b) := by
  unfold Controller.completeRecord
  dsimp only
  split
  · exact (updJacket_settles _ _ _).trans (settle_settles _ _ _ _)
  · split
    · exact (updJacket_settles _ _ _).trans (earlyEnd_settles _ _ _)
    · exact (updJacket_settles _ _ _).trans (updJacket_settles _ _ _)

theorem accumulate_settles (c : Controller) (n : JacketNo) (b : Block) (s : Sample) : Settles c (c.accumulate n b s) := by
  unfold Controller.accumulate
  dsimp only
  split
  · exact (updJacket_settles _ _ _).trans (completeRecord_settles _ _ _)
  · exact updJacket_settles _ _ _

theorem blockSample_settles (c : Controller) (n : JacketNo) (s : Sample) : Settles c (c.blockSample n s) := by
  unfold Controller.blockSample
  dsimp only
  split
  · split
    · exact accumulate_settles _ _ _ _
    · exact updJacket_settles _ _ _
  · split
    · exact completeBlock_settles _ _
    · exact .refl
  · exact accumulate_settles _ _ _ _
  · split
    · exact accumulate_settles _ _ _ _
    · split
      · exact (updJacket_settles _ _ _).trans (accumulate_settles _ _ _ _)
      · exact .refl
  · exact .refl

theorem endRecovery_settles (c : Controller) (n : JacketNo) (r : RecoverReason) : Settles c (c.endRecovery n r) := by
  unfold Controller.endRecovery
  split
  · exact evaluate_settles _ _
  · split
    · exact startProgram_settles _ _
    · exact updJacket_settles _ _ _
  · exact unload_settles _ _ _
  · exact updJacket_settles _ _ _

theorem takeSample_settles (c : Controller) (n : JacketNo) (s : Sample) : Settles c (c.takeSample n s) := by
  unfold Controller.takeSample
  split
  · dsimp only
    split
    · exact ((updJacket_settles _ _ _).trans (earlyEnd_settles _ _ _)).trans (raise_settles _ _ _ _)
    · exact (updJacket_settles _ _ _).trans (blockSample_settles _ _ _)
  · dsimp only
    split
    · exact (updJacket_settles _ _ _).trans (endRecovery_settles _ _ _)
    · exact updJacket_settles _ _ _
  · exact .refl

theorem jacketHold_settles (c : Controller) (n : JacketNo) : Settles c (c.jacketHold n) := by
  unfold Controller.jacketHold
  split
  · exact ventInto_settles _ _ _
  · exact updJacket_settles _ _ _
  · exact .refl

theorem jacketResume_settles (c : Controller) (n : JacketNo) : Settles c (c.jacketResume n) := by
  unfold Controller.jacketResume
  split
  · exact startProgram_settles _ _
  · exact updJacket_settles _ _ _
  · exact .refl

/-! ### Routes and outcomes -/

theorem routeTo_settles (c : Controller) (slot : Nat) (s : RecordState) (l : List Order) : Settles c (c.routeTo slot s l) :=
  (updRecord_settles _ _ _ fun _ => by simp [Record.SameIdentity]).trans (makeOrders_settles _ _ _)

theorem route_settles (c : Controller) (slot : Nat) : Settles c (c.route slot) := by
  unfold Controller.route
  split
  · exact .refl
  · dsimp only
    split
    · exact routeTo_settles _ _ _ _
    · split
      · exact routeTo_settles _ _ _ _
      · exact routeTo_settles _ _ _ _
    · exact routeTo_settles _ _ _ _
    · exact routeTo_settles _ _ _ _
    · exact .refl

theorem freeAwaiting_settles (c : Controller) (n : JacketNo) : Settles c (c.freeAwaiting n) := by
  unfold Controller.freeAwaiting
  split
  · exact updJacket_settles _ _ _
  · exact .refl

theorem orderLost_settles (c : Controller) (r : Record) (b : Body) : Settles c (c.orderLost r b) :=
  (holdRecord_settles _ _ _).trans (raise_settles _ _ _ _)

theorem jacketGateLost_settles (c : Controller) (r : Record) (n : JacketNo) : Settles c (c.jacketGateLost r n) :=
  (((holdRecord_settles _ _ _).trans (freeAwaiting_settles _ _)).trans (raise_settles _ _ _ _)).trans (jacketPass_settles _ _)

theorem orderOutcome_settles (c : Controller) (r : Record) (b : Body) (d : Bool) : Settles c (c.orderOutcome r b d) := by
  unfold Controller.orderOutcome
  split
  · split
    · exact .refl
    · exact jacketGateLost_settles _ _ _
  iterate 4
    · split
      · exact .refl
      · exact orderLost_settles _ _ _
  · split
    · exact askRelease_settles _ _
    · exact orderLost_settles _ _ _
  · exact .refl

theorem recordOutcome_settles (c : Controller) (slot : Nat) (e : OutEntry) (d : Bool) :
    Settles c (c.recordOutcome slot e d) := by
  unfold Controller.recordOutcome
  split
  · exact .refl
  · split
    · split
      · exact .refl
      · exact raise_settles _ _ _ _
    · split
      · exact orderOutcome_settles _ _ _ _
      · exact .refl

theorem infeedLost_settles (c : Controller) (o : InfeedOrder) : Settles c (c.infeedLost o) := by
  unfold Controller.infeedLost
  dsimp only
  split
  · exact (raise_settles _ _ _ _).trans (offerInfeed_settles _ _ _)
  · exact raise_settles _ _ _ _

theorem commandLost_settles (c : Controller) (n : JacketNo) : Settles c (c.commandLost n) := by
  unfold Controller.commandLost
  split <;> first | exact faultJacket_settles _ _ _ | exact .refl

theorem outcome_settles (c : Controller) (e : OutEntry) (d : Bool) : Settles c (c.outcome e d) := by
  unfold Controller.outcome
  split
  · exact recordOutcome_settles _ _ _ _
  · split
    · exact .refl
    · exact commandLost_settles _ _
  · split
    · split
      · exact .refl
      · exact infeedLost_settles _ _
    · exact .refl
  · split
    · exact .refl
    · exact raise_settles _ _ _ _
  all_goals exact .refl

/-! ### The hold purge -/

theorem restoreOwed_settles (e : QueueEntry) (c : Controller) : Settles c (Controller.restoreOwed e c) := by
  unfold Controller.restoreOwed
  split
  · split
    · exact updRecord_settles _ _ _ fun _ => by simp [Record.SameIdentity]
    · exact .refl
  · exact updJacket_settles _ _ _
  · unfold Controller.restoreInfeed
    split
    · exact (Change.mark _).settles
    · exact .refl
  · exact .refl

theorem restoreNotice_settles (l : List QueueEntry) (c : Controller) (cls : NoticeClass) :
    Settles c (Controller.restoreNotice l c cls) := by
  unfold Controller.restoreNotice
  dsimp only
  split
  · exact .refl
  · exact (Change.notice _ _).settles

theorem dropRecordless_settles (c : Controller) (e : QueueEntry) : Settles c (c.dropRecordless e) := by
  unfold Controller.dropRecordless
  split
  · exact raise_settles _ _ _ _
  · exact .refl

theorem purge_settles (c : Controller) : Settles c c.purge := by
  unfold Controller.purge
  dsimp only
  split
  · exact .refl
  · unfold Controller.afterFreeing
    refine Settles.trans ?_ (arbitrate_settles _)
    refine Changes.judge ?_ _
    refine Changes.trans ?_ (foldl_settles dropRecordless_settles _ _).changes
    refine Changes.trans ?_ (foldl_settles (restoreNotice_settles _) _ _).changes
    refine Changes.trans ?_ (foldr_settles (fun c e => restoreOwed_settles e c) _ _).changes
    exact (Change.thin _ List.filter_sublist).one

/-! ### Two updates in one, and operations that find nothing to do -/

theorem updRecord_updRecord (c : Controller) (slot : Nat) (f g : Record → Record) (h : ∀ r : Record, (f r).slot = r.slot) :
    (c.updRecord slot f).updRecord slot g = c.updRecord slot fun r => g (f r) := by
  simp only [Controller.updRecord, List.map_map]
  congr 1
  refine List.map_congr_left fun r _ => ?_
  by_cases e : r.slot = slot <;> simp [Function.comp, e, h]

theorem updJacket_updJacket (c : Controller) (n : JacketNo) (f g : Jacket → Jacket) :
    (c.updJacket n f).updJacket n g = c.updJacket n fun j => g (f j) := by
  have e : (c.updJacket n f).jacket n = f (c.jacket n) := Vector.getElem_set_self n.isLt
  simp [Controller.updJacket] at e ⊢
  rw [e]

/-- With no entry to withdraw, a withdrawal changes nothing. -/
theorem withdraw_nothing (c : Controller) (p : QueueEntry → Bool) (h : ∀ e ∈ c.ring.queue, p e = false) : c.withdraw p = c := by
  have k : c.ring.queue.countP p = 0 := List.countP_eq_zero.mpr fun e he => by simp [h e he]
  simp [Controller.withdraw, Controller.withdrawWith, k, Controller.withdrawLoop]

/-- While the line is STOPPED or HOLDING no pass is made (R78). -/
theorem passes_held_over (c : Controller) (h : c.lineMoving = false) (slot : Nat) (n : JacketNo) :
    c.recordPass slot = c ∧ c.jacketPass n = c := by
  simp [Controller.recordPass, Controller.jacketPass, h]

theorem jacketPasses_eightPasses (c : Controller) : c.jacketPasses = c.eightPasses := by
  simp only [Controller.jacketPasses, jacketNumbers, List.foldl_cons, List.foldl_nil, Controller.eightPasses]

end Sys2Proof.Machine
end

