-- ==== Sys2Proof/Laws/Moves.lean ====
section
/-! SUPPORT. What a step can do, said once: unless it is POWER_ON, a step is a chain of moves, and a move is a small change of the shared operations
or one of the acts that are left to one command; only a command that can carry an entry tag admits. A property that every move keeps is kept by every step. -/
namespace Sys2Proof.Machine

/-- One move: a small change, or one of the acts that only one command makes. `adm` says whether admission is among them. -/
inductive Move (adm : Prop) : Controller → Controller → Prop
  | change {c d : Controller} (h : Change c d) : Move adm c d
  | admission {c : Controller} (tag : EntryTag) (e : TypeEntry) (w : Option Window) (h : c.actsOnTags = true)
      (fresh : c.recordOf tag.serial = none) (ok : adm) : Move adm c { c with records := c.records ++ [admitted c.freeSlot tag e w] }
  | pop {c : Controller} (e : OutEntry) (rest : List OutEntry) (h : c.ring.outstanding = e :: rest) :
      Move adm c (c.setOutstanding rest)
  | gateOnly {c : Controller} (serial : Serial) (lane : GateDest) (h : c.actsOnTags = true) :
      Move adm c (c.enqueue (.gate serial lane) (.recordless serial))
  | forward {c : Controller} (bytes : List Byte) (h : c.forwardRoom = true) : Move adm c (c.placeForward bytes)
  | startForwarded {c : Controller} (k : Nat) : Move adm c (c.startForwarded k)
  | complete {c : Controller} : Move adm c c.completeTransmission
  | startOwn {c : Controller} (e : QueueEntry) (h : c.ownCandidate = some e) :
      Move adm c { c with ring := { c.ring with
        queue := queueRest c.ring.queue, outstanding := c.ring.outstanding ++ [c.outEntry e],
        transmitter := .own (c.ownFrame e).wire, streak := 0, sequence := (c.ring.sequence + 1) % 256 } }
  | ringStatus {c : Controller} (s : RingStatus) : Move adm c (c.setRingStatus s)
  | lock {c : Controller} (b : Bool) : Move adm c (c.setLock b)
  | tick {c : Controller} : Move adm c c.tick
  | cause {c : Controller} (k : HoldCause) (b : Bool) : Move adm c (c.setCause k b)
  | hold {c : Controller} (k : HoldCause) (h : c.line.state ≠ .holding) :
      Move adm c (({ c with line := { c.line with holdFrom := c.line.state, state := .holding } }.setCause k true).setQueue
        (c.ring.queue.filter fun e => !e.body.holdSet))
  | start {c : Controller} (h : c.line.state ≠ .holding) (d : c.line.date ≠ none) : Move adm c (c.setLineState .running)
  | stopEmpty {c : Controller} (h : c.line.state = .running) (e : c.records = []) : Move adm c (c.setLineState .stopped)
  | stopDrain {c : Controller} (h : c.line.state = .running) (e : c.records ≠ []) : Move adm c (c.setLineState .stopping)
  | resumeDrained {c : Controller} (h : c.line.state = .holding) (e : c.records = []) :
      Move adm c { c with line := { c.line with state := .stopped, holdFrom := .stopped } }
  | resume {c : Controller} (h : c.line.state = .holding) :
      Move adm c { c with line := { c.line with state := c.line.holdFrom, holdFrom := .stopped } }
  | restart {c : Controller} (h : c.line.state ≠ .running ∧ c.line.state ≠ .stopping) : Move adm c c.restartBlocks
  | date {c : Controller} (d : Date) (h : d.valid = true) (e : c.line.date = some d) :
      Move adm c { c with line := { c.line with date := some d } }
  | newDate {c : Controller} (d : Date) (h : d.valid = true) :
      Move adm c { c with
        line := { c.line with date := some d }
        verification := c.verification.map fun v => { v with verified := false } }
  | items {c : Controller} (code : Nat) (value : List Byte) (i : Items) (s : c.line.state = .stopped)
      (h : c.line.items.set code value = some i) :
      Move adm c { c with line := { c.line with items := i } }
  | type {c : Controller} (i : Nat) (hi : i < 128) (r : TypeRecord) (e : TypeEntry) (h : judgeType c.tables r = .ok e) :
      Move adm c (c.setTables { c.tables with types := c.tables.types.set i e hi })
  | window {c : Controller} (i : Nat) (hi : i < 16) (w : Window) (e : Window) (h : judgeWindow c.tables i w = .ok e) :
      Move adm c (c.setTables { c.tables with windows := c.tables.windows.set i e hi })
  | defect {c : Controller} (i : Nat) (hi : i < 256) (a : Action) :
      Move adm c (c.setTables { c.tables with defects := c.tables.defects.set i a hi })
  | block {c : Controller} (i : Nat) (hi : i < 96) (r : BlockRecord) (b : Block) (h : c.judgeBlock i r = .ok b) :
      Move adm c (c.setTables { c.tables with blocks := c.tables.blocks.set i b hi })
  | station {c : Controller} (i : Nat) (hi : i < 64) (r : StationRecord) (x : Role) (h : c.judgeStation i r = .ok x) :
      Move adm c (c.setTables { c.tables with stations := c.tables.stations.set i x hi })
  | unverify {c : Controller} (n : JacketNo) : Move adm c (c.updVerif n fun _ => .powerOn)
  | frozen {c : Controller} (f : Option FrozenViews) : Move adm c (c.setFrozen f)

/-- A chain of moves. -/
inductive Moves (adm : Prop) : Controller → Controller → Prop
  | refl {c : Controller} : Moves adm c c
  | tail {a b c : Controller} (h : Moves adm a b) (k : Move adm b c) : Moves adm a c

variable {adm : Prop}

theorem Move.one {a b : Controller} (h : Move adm a b) : Moves adm a b := .tail .refl h

theorem Moves.trans {a b c : Controller} (h : Moves adm a b) (k : Moves adm b c) : Moves adm a c := by
  induction k with
  | refl => exact h
  | tail _ k ih => exact .tail ih k

theorem Changes.moves {a b : Controller} (h : Changes a b) : Moves adm a b := by
  induction h with
  | refl => exact .refl
  | tail _ k ih => exact .tail ih (.change k)

/-- A property that every move keeps is kept by a chain of them. -/
theorem Moves.keep {p : Controller → Prop} (hp : ∀ a b, Move adm a b → p a → p b) {a b : Controller} (h : Moves adm a b) :
    p a → p b := by
  induction h with
  | refl => exact id
  | tail _ k ih => exact fun ha => hp _ _ k (ih ha)

/-- What a command does: a chain of moves, which leaves a judged infeed mark judged. -/
structure Acts (adm : Prop) (c d : Controller) : Prop where
  moves : Moves adm c d
  judged : c.Judged → d.Judged

theorem Acts.refl {c : Controller} : Acts adm c c := ⟨.refl, id⟩

theorem Acts.trans {a b c : Controller} (h : Acts adm a b) (k : Acts adm b c) : Acts adm a c :=
  ⟨h.moves.trans k.moves, fun j => k.judged (h.judged j)⟩

theorem Settles.acts {a b : Controller} (h : Settles a b) : Acts adm a b := ⟨h.changes.moves, h.judged⟩

/-- A move the infeed mark is not judged by. -/
theorem Move.acts {a b : Controller} (h : Move adm a b) (j : a.Judged → b.Judged := by exact fun h => h) : Acts adm a b := ⟨h.one, j⟩

/-- Moves followed by a judgment of the infeed mark. -/
theorem Moves.judge {a b : Controller} (h : Moves adm a b) (freed : Bool) : Acts adm a (b.judge freed) :=
  ⟨h.trans (judge_changes _ _).moves, fun _ => judge_judged _ _⟩

theorem Move.any {a b : Controller} (h : Move adm a b) : Move True a b := by
  cases h with
  | admission tag e w h f => exact .admission tag e w h f trivial
  | change h => exact .change h
  | pop e r h => exact .pop e r h
  | gateOnly s l h => exact .gateOnly s l h
  | forward x h => exact .forward x h
  | startForwarded k => exact .startForwarded k
  | complete => exact .complete
  | startOwn e h => exact .startOwn e h
  | ringStatus s => exact .ringStatus s
  | lock b => exact .lock b
  | tick => exact .tick
  | cause k b => exact .cause k b
  | hold k h => exact .hold k h
  | start h d => exact .start h d
  | stopEmpty h e => exact .stopEmpty h e
  | stopDrain h e => exact .stopDrain h e
  | resumeDrained h e => exact .resumeDrained h e
  | resume h => exact .resume h
  | restart h => exact .restart h
  | date d h e => exact .date d h e
  | newDate d h => exact .newDate d h
  | items k v i s h => exact .items k v i s h
  | type i hi r e h => exact .type i hi r e h
  | window i hi w e h => exact .window i hi w e h
  | defect i hi a => exact .defect i hi a
  | block i hi r b h => exact .block i hi r b h
  | station i hi r x h => exact .station i hi r x h
  | unverify n => exact .unverify n
  | frozen f => exact .frozen f

theorem Moves.any {a b : Controller} (h : Moves adm a b) : Moves True a b := by
  induction h with
  | refl => exact .refl
  | tail _ k ih => exact .tail ih k.any

/-! ### Entries that leave the outstanding list -/

theorem popOldest_acts (c : Controller) (d : Bool) : Acts adm c (c.popOldest d) := by
  unfold Controller.popOldest
  split
  · exact .refl
  · next h => exact (Move.pop _ _ h).acts.trans (outcome_settles _ _ _).acts

theorem popLost_acts (n : Nat) : ∀ c, Acts adm c (Controller.popLost n c) := by
  induction n with
  | zero => exact fun _ => .refl
  | succ n ih => exact fun c => (popOldest_acts _ _).trans (ih _)

theorem matchReturn_acts (c : Controller) (s : Nat) (t : Bool) : Acts adm c (c.matchReturn s t) := by
  unfold Controller.matchReturn
  split
  · exact .refl
  · exact (popLost_acts _ _).trans (popOldest_acts _ _)

theorem expireDepth_acts (n : Nat) : ∀ c, Acts adm c (Controller.expireDepth n c) := by
  induction n with
  | zero => exact fun _ => .refl
  | succ n ih =>
    intro c
    unfold Controller.expireDepth
    split
    · exact .refl
    · split
      · exact (popOldest_acts _ _).trans (ih _)
      · exact .refl

theorem expire_acts (c : Controller) : Acts adm c c.expire := expireDepth_acts _ _

theorem flushOutstanding_acts (c : Controller) : Acts adm c c.flushOutstanding := popLost_acts _ _

/-! ### Line Control -/

theorem purge_of_hold (c : Controller) :
    Changes (c.setQueue (c.ring.queue.filter fun e => !e.body.holdSet)) c.purge := by
  unfold Controller.purge
  dsimp only
  split
  · next h =>
    have hq : (c.ring.queue.filter fun e => !e.body.holdSet) = c.ring.queue := by
      rw [List.filter_eq_self]
      intro e he
      rw [List.filter_eq_nil_iff] at h
      simpa using h e he
    rw [hq]
    exact .refl
  · refine Changes.trans ?_ (afterFreeing_settles _).changes
    refine Changes.trans ?_ (foldl_settles dropRecordless_settles _ _).changes
    refine Changes.trans ?_ (foldl_settles (restoreNotice_settles _) _ _).changes
    exact (foldr_settles (fun c e => restoreOwed_settles e c) _ _).changes

theorem setCause_queue (c : Controller) (k : HoldCause) (b : Bool) : (c.setCause k b).ring = c.ring := by
  cases k <;> rfl

theorem enterHolding_acts (c : Controller) (k : HoldCause) (h : c.line.state ≠ .holding) : Acts adm c (c.enterHolding k) := by
  unfold Controller.enterHolding
  dsimp only
  refine Acts.trans ?_ (raise_settles _ _ _ _).acts
  refine Moves.judge ?_ _
  refine Moves.trans ?_ (foldl_settles jacketHold_settles _ _).changes.moves
  refine Moves.trans (Move.hold k h).one ?_
  have e : Moves adm _ _ := (purge_of_hold ({ c with line := { c.line with holdFrom := c.line.state, state := .holding } }.setCause k true)).moves
  rw [setCause_queue] at e
  exact e

theorem cause_acts (c : Controller) (k : HoldCause) (b : Bool) : Acts adm c (c.setCause k b) :=
  (Move.cause k b).acts fun h => by cases k <;> exact h

theorem addCause_acts (c : Controller) (k : HoldCause) : Acts adm c (c.addCause k) := by
  unfold Controller.addCause
  split
  · exact cause_acts _ _ _
  · next h => exact enterHolding_acts c k h

theorem ringGoesDown_acts (c : Controller) : Acts adm c c.ringGoesDown := by
  unfold Controller.ringGoesDown
  dsimp only
  split
  · exact (Move.ringStatus .down).acts
  · exact ((Move.ringStatus .down).acts.trans (addCause_acts _ _)).trans (flushOutstanding_acts _)

theorem ringGoesUp_acts (c : Controller) : Acts adm c c.ringGoesUp := by
  unfold Controller.ringGoesUp
  dsimp only
  split
  · exact (Move.ringStatus .up).acts
  · exact ((Move.ringStatus .up).acts.trans (cause_acts _ _ _)).trans (raise_settles _ _ _ _).acts

theorem startLine_acts {c d : Controller} (h : c.startLine = .ok d) : Acts adm c d := by
  unfold Controller.startLine at h
  split at h
  · cases h
  · next g =>
    split at h
    · cases h
    · next d =>
      repeat (split at h; · cases h)
      rw [← Except.ok.inj h]
      refine Acts.trans ?_ (jacketPasses_settles _).acts
      exact (Move.start (fun e => g (.inr e)) d).one.judge _

theorem stopLine_acts {c d : Controller} (h : c.stopLine = .ok d) : Acts adm c d := by
  unfold Controller.stopLine at h
  split at h
  · cases h
  · next g =>
    have g : c.line.state = .running := Decidable.not_not.mp g
    split at h
    · next e => rw [← Except.ok.inj h]; exact (Move.stopEmpty g e).one.judge _
    · next e =>
      rw [← Except.ok.inj h]
      refine Acts.trans ?_ (jacketPasses_settles _).acts
      exact (Move.stopDrain g e).one.judge _

theorem resumeState_moves (c : Controller) (h : c.line.state = .holding) : Moves adm c c.resumeState := by
  unfold Controller.resumeState
  split
  · next e => exact (Move.resumeDrained h e.2).one.trans (raise_settles _ _ _ _).changes.moves
  · exact (Move.resume h).one

theorem resumeLine_acts {c d : Controller} (h : c.resumeLine = .ok d) : Acts adm c d := by
  unfold Controller.resumeLine at h
  split at h
  · cases h
  · next g =>
    have g : c.line.state = .holding := Decidable.not_not.mp g
    split at h
    · cases h
    · rw [← Except.ok.inj h]
      have k : Acts adm c (c.resumeState.judge false).arbitrate :=
        ((resumeState_moves c g).judge _).trans (arbitrate_settles _).acts
      split
      · exact (k.trans (foldl_settles jacketResume_settles _ _).acts).trans (jacketPasses_settles _).acts
      · exact k

theorem restartVent_settles (c : Controller) (n : JacketNo) : Settles c (c.restartVent n) := by
  unfold Controller.restartVent
  split
  · exact offerCommand_settles _ _ _
  · exact .refl

theorem restartLine_acts {c d : Controller} (h : c.restartLine = .ok d) : Acts adm c d := by
  unfold Controller.restartLine at h
  split at h
  · cases h
  · next g =>
    rw [← Except.ok.inj h]
    refine Acts.trans ?_ (offerInfeed_settles _ _ _).acts
    refine Acts.trans ?_ (foldl_settles restartVent_settles _ _).acts
    exact ((Move.restart ⟨fun e => g (.inl e), fun e => g (.inr e)⟩).one.judge _).trans (arbitrate_settles _).acts

theorem setDate_acts {c d : Controller} {x : Date} (h : c.setDate x = .ok d) : Acts adm c d := by
  unfold Controller.setDate at h
  split at h
  · cases h
  · next v =>
    have v : x.valid = true := by simpa using v
    dsimp only at h
    split at h
    · next e => rw [← Except.ok.inj h]; exact (Move.date x v e).acts
    · rw [← Except.ok.inj h]; exact (Move.newDate x v).acts

theorem setConfig_acts {c d : Controller} {code : Nat} {value : List Byte} (h : c.setConfig code value = .ok d) :
    Acts adm c d := by
  unfold Controller.setConfig at h
  split at h
  · cases h
  · split at h
    · cases h
    · next g =>
      split at h
      · cases h
      · next e => rw [← Except.ok.inj h]; exact (Move.items code value _ (Decidable.not_not.mp g) e).acts

/-! ### Reports -/

theorem takeTag_acts (ok : adm) (c : Controller) (tag : EntryTag) : Acts adm c (c.takeTag tag) := by
  unfold Controller.takeTag
  split
  · next h =>
    have hg : ∀ lane, Acts adm c (c.gateOnly tag.serial lane) := fun lane =>
      (Move.gateOnly tag.serial lane h).one.judge _
    split
    · exact hg _
    · exact (hg _).trans (raise_settles _ _ _ _).acts
    · next e w hs =>
      refine Moves.judge (Move.admission tag e w h ?_ ok).one _
      unfold Controller.screen at hs
      split at hs
      · cases hs
      · split at hs
        · cases hs
        · split at hs
          · cases hs
          · split at hs
            · cases hs
            · next g => simpa using g
  · exact (judge_settles _ _).acts

theorem condemn_settles (c : Controller) (slot : Nat) (k : FailCause) : Settles c (c.condemn slot k) :=
  (updRecord_settles _ _ _ fun _ => by simp [Record.SameIdentity]).trans (route_settles _ _)

theorem takeMass_settles (c : Controller) (serial : Serial) (m : Nat) : Settles c (c.takeMass serial m) := by
  unfold Controller.takeMass
  split
  · exact stray_settles _ _ _ _
  · next r _ =>
    dsimp only
    have h1 : Settles c (c.updRecord r.slot fun r => { r with mass := some m }) :=
      updRecord_settles _ _ _ fun _ => by simp [Record.SameIdentity]
    have hw : Settles c ((c.updRecord r.slot fun r => { r with mass := some m }).updRecord r.slot
        fun r => { r with state := .weighed }) :=
      h1.trans (updRecord_settles _ _ _ fun _ => by simp [Record.SameIdentity])
    split
    · exact hw
    · split
      · exact h1.trans (divert_settles _ _ _ _)
      · exact h1.trans (condemn_settles _ _ _)
      · exact h1.trans (divert_settles _ _ _ _)
      · exact hw

theorem takeFindings_settles (c : Controller) (serial : Serial) (codes : List Nat) :
    Settles c (c.takeFindings serial codes) := by
  unfold Controller.takeFindings
  split
  · exact stray_settles _ _ _ _
  · split
    · exact stray_settles _ _ _ _
    · next r _ =>
      dsimp only
      have h1 : Settles c (c.updRecord r.slot fun r => { r with findings := some codes }) :=
        updRecord_settles _ _ _ fun _ => by simp [Record.SameIdentity]
      split
      · exact h1.trans (enterWaiting_settles _ _)
      · split
        · exact h1.trans (divert_settles _ _ _ _)
        · exact h1.trans (condemn_settles _ _ _)
        · exact h1.trans (divert_settles _ _ _ _)
        · exact h1.trans (enterWaiting_settles _ _)

theorem takeStamp_settles (c : Controller) (serial : Serial) (o k : Nat) : Settles c (c.takeStamp serial o k) := by
  unfold Controller.takeStamp
  split
  · exact stray_settles _ _ _ _
  · split
    · exact stray_settles _ _ _ _
    · dsimp only
      split
      · refine Settles.trans ?_ (makeOrders_settles _ _ _)
        refine Settles.trans ?_ (cancelOrders_settles _ _)
        exact updRecord_settles _ _ _ fun _ => by simp [Record.SameIdentity]
      · refine Settles.trans ?_ (raise_settles _ _ _ _)
        refine Settles.trans ?_ (holdRecord_settles _ _ _)
        exact updRecord_settles _ _ _ fun _ => by simp [Record.SameIdentity]

theorem takeScrap_settles (c : Controller) (serial : Serial) (o : Nat) : Settles c (c.takeScrap serial o) := by
  unfold Controller.takeScrap
  split
  · exact stray_settles _ _ _ _
  · split
    · exact stray_settles _ _ _ _
    · split
      · exact (cancelOrders_settles _ _).trans (askRelease_settles _ _)
      · exact (holdRecord_settles _ _ _).trans (raise_settles _ _ _ _)

theorem arrive_settles (c : Controller) (n : JacketNo) : Settles c (c.arrive n) := by
  unfold Controller.arrive
  dsimp only
  have h : Settles c (((c.updRecord (c.servedSlot n) fun r => { r with state := .testing }).cancelOrders (c.servedSlot n)).updJacket n
      fun j => { j with loaded := j.awaited, awaited := none }) := by
    refine Settles.trans ?_ (updJacket_settles _ _ _)
    refine Settles.trans ?_ (cancelOrders_settles _ _)
    exact updRecord_settles _ _ _ fun _ => by simp [Record.SameIdentity]
  split
  · exact h.trans (startProgram_settles _ _)
  · exact h.trans (updJacket_settles _ _ _)

theorem holdMisrouted_settles (c : Controller) (r : Record) : Settles c (c.holdMisrouted r) := by
  unfold Controller.holdMisrouted
  split
  · dsimp only
    split
    · exact ((holdRecord_settles _ _ _).trans (freeAwaiting_settles _ _)).trans (jacketPass_settles _ _)
    · exact holdRecord_settles _ _ _
  · exact .refl

theorem misroute_settles (c : Controller) (n : JacketNo) (serial : Serial) : Settles c (c.misroute n serial) := by
  unfold Controller.misroute
  dsimp only
  refine Settles.trans ?_ (raise_settles _ _ _ _)
  refine Settles.trans ?_ (updJacket_settles _ _ _)
  split
  · exact holdRecord_settles _ _ _
  · exact (holdRecord_settles _ _ _).trans (holdMisrouted_settles _ _)

theorem takeArrival_settles (c : Controller) (n : JacketNo) (serial : Serial) : Settles c (c.takeArrival n serial) := by
  unfold Controller.takeArrival
  split
  · split
    · exact arrive_settles _ _
    · exact misroute_settles _ _ _
  · exact stray_settles _ _ _ _

theorem finishUnload_settles (c : Controller) (n : JacketNo) : Settles c (c.finishUnload n) := by
  unfold Controller.finishUnload
  split
  · exact (updJacket_settles _ _ _).trans (faultJacket_settles _ _ _)
  · exact updJacket_settles _ _ _

theorem takeClear_settles (c : Controller) (n : JacketNo) (serial : Serial) : Settles c (c.takeClear n serial) := by
  unfold Controller.takeClear
  dsimp only
  split
  · refine Settles.trans ?_ (jacketPass_settles _ _)
    have h := (dropCommands_settles c n fun k => k == .unload).trans (finishUnload_settles _ n)
    split
    · exact h.trans (route_settles _ _)
    · exact h.trans (enterWaiting_settles _ _)
    · exact h
  · split
    · exact updJacket_settles _ _ _
    · exact stray_settles _ _ _ _

theorem jacketReport_settles (c : Controller) (n : JacketNo) (k : Nat) (p : List Byte) :
    Settles c (c.jacketReport n k p) := by
  unfold Controller.jacketReport
  split
  · split
    · exact takeArrival_settles _ _ _
    · exact stray_settles _ _ _ _
  · split
    · exact takeSample_settles _ _ _
    · exact stray_settles _ _ _ _
  · split
    · exact takeClear_settles _ _ _
    · exact stray_settles _ _ _ _
  · exact .refl

theorem classify_acts (c : Controller) (source k : Nat) (p : List Byte) (ok : k = 1 → adm) : Acts adm c (c.classify source k p) := by
  unfold Controller.classify
  split
  · split
    · exact takeTag_acts (ok rfl) _ _
    · exact (stray_settles _ _ _ _).acts
  · split
    · exact (takeMass_settles _ _ _).acts
    · exact (stray_settles _ _ _ _).acts
  · split
    · exact (takeFindings_settles _ _ _).acts
    · exact (stray_settles _ _ _ _).acts
  · split
    · exact (takeStamp_settles _ _ _ _).acts
    · exact (stray_settles _ _ _ _).acts
  · split
    · exact (takeScrap_settles _ _ _).acts
    · exact (stray_settles _ _ _ _).acts
  · exact (jacketReport_settles _ _ _ _).acts
  · exact .refl

/-! ### Requests -/

theorem except_map_ok {α β ε : Type} {x : Except ε α} {f : α → β} {b : β} (h : x.map f = .ok b) :
    ∃ a, x = .ok a ∧ f a = b := by
  cases x with
  | error e => cases h
  | ok a => cases h; exact ⟨a, rfl, rfl⟩

theorem writeRecord_acts {c d : Controller} {i : Nat} {r : TableRecord} (h : c.writeRecord i r = .ok d) : Acts adm c d := by
  unfold Controller.writeRecord at h
  split at h
  · split at h
    · obtain ⟨e, he, hd⟩ := except_map_ok h
      subst hd; exact (Move.type i _ _ e he).acts
    · cases h
  · split at h
    · obtain ⟨e, he, hd⟩ := except_map_ok h
      subst hd; exact (Move.window i _ _ e he).acts
    · cases h
  · split at h
    · obtain ⟨e, he, hd⟩ := except_map_ok h
      subst hd; exact (Move.defect i _ e).acts
    · cases h
  · split at h
    · obtain ⟨e, he, hd⟩ := except_map_ok h
      subst hd; exact (Move.block i _ _ e he).acts
    · cases h
  · split at h
    · obtain ⟨e, he, hd⟩ := except_map_ok h
      subst hd
      dsimp only
      split
      · exact (Move.station i _ _ e he).acts.trans (offerNotices_settles _).acts
      · exact (Move.station i _ _ e he).acts
    · cases h

theorem writeRecords_acts (first count : Nat) (l : List TableRecord) :
    ∀ (c : Controller) (i : Nat), Acts adm c (Controller.writeRecords first count c i l).part := by
  induction l with
  | nil => exact fun _ _ => .refl
  | cons r l ih =>
    intro c i
    unfold Controller.writeRecords
    split
    · next h => exact (writeRecord_acts h).trans (ih _ _)
    · exact .refl

theorem tableWrite_acts (c : Controller) (p : List Byte) : Acts adm c (c.tableWrite p).part := by
  unfold Controller.tableWrite
  split
  · dsimp only
    split
    · exact .refl
    · split
      · exact .refl
      · split
        · exact .refl
        · exact writeRecords_acts _ _ _ _ _
  · exact .refl

theorem tableRead_part (c : Controller) (p : List Byte) : (c.tableRead p).part = c := by
  unfold Controller.tableRead
  split
  · split
    · rfl
    · split <;> rfl
  · rfl

theorem enableJacket_acts {c d : Controller} {n : JacketNo} (h : c.enableJacket n = .ok d) : Acts adm c d := by
  unfold Controller.enableJacket at h
  split at h
  · cases h
  · split at h
    · cases h
    · rw [← Except.ok.inj h]
      refine Acts.trans ?_ (jacketPass_settles _ _).acts
      exact (updJacket_settles _ _ _ fun _ _ _ => ⟨rfl, rfl, rfl⟩).acts.trans (Move.unverify n).acts

theorem disableJacket_acts {c d : Controller} {n : JacketNo} (h : c.disableJacket n = .ok d) : Acts adm c d := by
  unfold Controller.disableJacket at h
  split at h
  · rw [← Except.ok.inj h]; exact (updJacket_settles _ _ _).acts
  · cases h

theorem abortJacket_acts {c d : Controller} {n : JacketNo} (h : c.abortJacket n = .ok d) : Acts adm c d := by
  unfold Controller.abortJacket at h
  split at h
  · rw [← Except.ok.inj h]; exact (ventInto_settles _ _ _).acts
  · cases h

theorem releaseSerial_acts {c d : Controller} {serial : Serial} (h : c.releaseSerial serial = .ok d) : Acts adm c d := by
  unfold Controller.releaseSerial at h
  split at h
  · cases h
  · split at h
    · cases h
    · split at h
      · rw [← Except.ok.inj h]; exact .refl
      · rw [← Except.ok.inj h]; exact (askRelease_settles _ _).acts

/-- The enables that a queue's NOTICEs cleared are not what the infeed mark is judged by. -/
theorem forgetEnables_judged (c : Controller) (h : c.Judged) :
    (c.setQueue (c.ring.queue.map fun e => { e with clearedEnable := false })).Judged := by
  have e : (c.setQueue (c.ring.queue.map fun e => { e with clearedEnable := false })).infeedReasons = c.infeedReasons := by
    simp [Controller.infeedReasons, Controller.setQueue, normalRoom, normalCount, List.filter_map, List.countP_map,
      Function.comp_def]
    exact ⟨rfl, rfl⟩
  unfold Controller.Judged at *
  rw [e]
  exact h

theorem setEnables_acts {c d : Controller} {l : List Byte} (h : c.setEnables l = .ok d) : Acts adm c d := by
  unfold Controller.setEnables at h
  split at h
  · rw [← Except.ok.inj h]
    refine Acts.trans ?_ ((Move.change (Change.relabelQueue _ fun _ => ?_)).acts (forgetEnables_judged _))
    · exact (foldl_settles (fun _ cls => (Change.notice cls _).settles) _ _).acts
    · rfl
  · cases h

theorem testNotice_acts {c d : Controller} {code : Nat} (h : c.testNotice code = .ok d) : Acts adm c d := by
  unfold Controller.testNotice at h
  split at h
  · cases h
  · rw [← Except.ok.inj h]; exact ((markRaise_settles _ _ _ _ _).trans (offerNotice_settles _ _)).acts

theorem onJacket_acts {c d : Controller} {f : JacketNo → Except Reason Controller} {b : Byte}
    (hf : ∀ n d, f n = .ok d → Acts adm c d) (h : onJacket f b = .ok d) : Acts adm c d := by
  unfold onJacket at h
  split at h
  · cases h
  · exact hf _ _ h

theorem commandAction_acts {c d : Controller} {code : Nat} {fields : List Byte} (h : c.commandAction code fields = .ok d) :
    Acts adm c d := by
  unfold Controller.commandAction at h
  split at h
  · exact startLine_acts h
  · exact stopLine_acts h
  · exact resumeLine_acts h
  · exact restartLine_acts h
  · exact setDate_acts h
  · next item value =>
    by_cases k : value.length = if item.toNat = 0 then 4 else 2
    · rw [if_pos k] at h; exact setConfig_acts h
    · rw [if_neg k] at h; cases h
  · exact onJacket_acts (fun _ _ => enableJacket_acts) h
  · exact onJacket_acts (fun _ _ => disableJacket_acts) h
  · exact onJacket_acts (fun _ _ => abortJacket_acts) h
  · exact releaseSerial_acts h
  · exact setEnables_acts h
  · exact testNotice_acts h
  · cases h

theorem command_acts (c : Controller) (p : List Byte) : Acts adm c (c.command p).part := by
  unfold Controller.command
  split
  · exact .refl
  · unfold Controller.commandAnswer
    split
    · next h => exact commandAction_acts h
    · exact .refl

theorem jacketView_acts (c : Controller) (p : List Byte) : Acts adm c (c.jacketView p).part := by
  unfold Controller.jacketView
  split
  · split
    · unfold Controller.liveView; split <;> exact .refl
    · split
      · unfold Controller.frozenFirst
        split
        · exact .refl
        · exact (Move.frozen _).acts
      · exact .refl
  · split
    · unfold Controller.frozenNext
      split
      · exact .refl
      · exact (Move.frozen _).acts
    · exact .refl
  · exact .refl

theorem recordView_part (c : Controller) (p : List Byte) : (c.recordView p).part = c := by
  unfold Controller.recordView
  split
  · rfl
  · split <;> rfl

theorem registerList_part (c : Controller) (p : List Byte) : (c.registerList p).part = c := by
  unfold Controller.registerList
  split
  · split <;> rfl
  · rfl

theorem judgeRequest_acts (c : Controller) (p : List Byte) : Acts adm c (c.judgeRequest p).part := by
  unfold Controller.judgeRequest
  split
  · exact .refl
  · split
    · exact tableWrite_acts _ _
    · rw [tableRead_part]; exact .refl
    · exact command_acts _ _
    · exact jacketView_acts _ _
    · rw [recordView_part]; exact .refl
    · rw [registerList_part]; exact .refl
    · exact .refl

theorem request_acts (c : Controller) (source : Nat) (p : List Byte) : Acts adm c (c.request source p) := by
  unfold Controller.request
  dsimp only
  have h : Acts adm c (Controller.reply source p (c.judgeRequest p)) := by
    unfold Controller.reply
    dsimp only
    refine Acts.trans ?_ (offerReply_settles _).acts
    exact (judgeRequest_acts c p).trans (Change.buffer _).settles.acts
  split
  · exact h.trans (offerNotices_settles _).acts
  · exact h

/-! ### Reception, the transmitter, and the step -/

theorem passOn_acts (c : Controller) (f : Frame) (ok : f.kind.toNat = 1 → adm) : Acts adm c (c.passOn f) := by
  unfold Controller.passOn
  split
  · exact .refl
  · next g =>
    have g : c.forwardRoom = true := by simpa using g
    split
    · split
      · exact ((Move.forward _ g).acts.trans (Change.buffer _).settles.acts).trans (request_acts _ _ _)
      · exact (Move.forward _ g).acts
    · exact (Move.forward _ g).acts.trans (classify_acts _ _ _ _ ok)

theorem accept_acts (c : Controller) (f : Frame) (ok : f.kind.toNat = 1 → adm) : Acts adm c (c.accept f) := by
  unfold Controller.accept
  split
  · exact matchReturn_acts _ _ _
  · exact passOn_acts _ _ ok

theorem bypassFrame_acts (c : Controller) (bytes : List Byte) : Acts adm c (c.bypassFrame bytes) := by
  unfold Controller.bypassFrame
  split
  · next g => exact (Move.forward _ g).acts
  · exact .refl

theorem receiveFrame_acts (c : Controller) (f : Frame) (ok : f.kind.toNat = 1 → adm) : Acts adm c (c.receiveFrame f) := by
  unfold Controller.receiveFrame
  split
  · exact bypassFrame_acts _ _
  · split
    · exact .refl
    · exact accept_acts _ _ ok

theorem receiveBytes_acts (ok : adm) (c : Controller) (bytes : List Byte) : Acts adm c (c.receiveBytes bytes) := by
  unfold Controller.receiveBytes
  split
  · exact bypassFrame_acts _ _
  · split
    · exact .refl
    · exact accept_acts _ _ fun _ => ok

theorem startOwn_acts (c : Controller) (e : QueueEntry) (h : c.ownCandidate = some e) : Acts adm c (c.startOwn e) := by
  unfold Controller.startOwn Controller.afterFreeing
  refine Acts.trans ?_ (arbitrate_settles _).acts
  exact (Move.startOwn e h).one.judge _

theorem transmit_acts (c : Controller) : Acts adm c c.transmit := by
  unfold Controller.transmit
  split
  · exact .refl
  · split
    · exact .refl
    · next h => exact startOwn_acts _ _ h
    · exact (Move.startForwarded _).acts
    · next h =>
      split
      · exact startOwn_acts _ _ h
      · exact (Move.startForwarded _).acts

theorem ite_acts {c d : Controller} {p : Prop} [Decidable p] (h : Acts adm c d) : Acts adm c (if p then d else c) := by
  split
  · exact h
  · exact .refl

theorem lock_acts (c : Controller) (b : Bool) : Acts adm c (c.setLock b) :=
  (Move.lock b).acts fun h => by unfold Controller.setLock; split <;> exact h

theorem complete_acts (c : Controller) : Acts adm c c.completeTransmission :=
  Move.complete.acts fun h => by unfold Controller.completeTransmission; split <;> exact h

/-- Whether a command can carry an entry tag. A return is stripped, whatever its kind. -/
def carriesTag : Instr → Bool
  | .frameDiscarded _ | .forwardedFrame _ | .entryTag _ _ => true
  | _ => false

theorem receiveOwn_acts (c : Controller) (destination kind sequence : Byte) (payload : List Byte) (trailer : Byte) :
    Acts adm c (c.receiveFrame
      { header := { destination, source := c.ring.nodeAddress.setWidth 8, sequence, trailer }, kind, payload }) := by
  unfold Controller.receiveFrame Controller.accept
  split
  · exact bypassFrame_acts _ _
  · split
    · exact .refl
    · rw [if_pos]
      · exact matchReturn_acts _ _ _
      · simp
        have := c.ring.nodeAddress.isLt
        omega

/-- A command other than POWER_ON is a chain of moves, with admission among them only if it can carry an entry tag. -/
theorem exec_acts {i : Instr} {s t : State} (h : exec i s = .next t) (hi : isPowerOn i = false) :
    Acts (carriesTag i = true) s.part t.part := by
  cases i <;> first | (cases hi; done) | (rw [← Host.Outcome.next.inj h]; first
    | exact receiveBytes_acts rfl _ _
    | exact receiveOwn_acts _ _ _ _ _ _
    | exact receiveFrame_acts _ _ fun _ => rfl
    | (refine receiveFrame_acts _ _ fun h => ?_; simp [manageFrame, manageKind] at h)
    | exact lock_acts _ _
    | exact ite_acts (ringGoesDown_acts _)
    | exact ite_acts (ringGoesUp_acts _)
    | exact transmit_acts _
    | exact complete_acts _
    | exact expire_acts _
    | exact ite_acts (earlyEnd_settles _ _ _).acts
    | exact ite_acts (completeBlock_settles _ _).acts
    | exact ite_acts (faultJacket_settles _ _ _).acts
    | (simp only [State.withPart]; split; exact .refl; exact addCause_acts _ _)
    | (simp only [State.withPart]; split; exact .refl; exact cause_acts _ _ _))

theorem poweredOn_acts (straps : NodeAddress) (hold : Bool) : Acts adm (.powerOn straps) (poweredOn straps hold) := by
  unfold poweredOn
  dsimp only
  split
  · exact addCause_acts _ _
  · exact .refl

/-- A property that every move keeps, and that the power-on state has, is kept by every step. -/
theorem kept_of_moves {p : Controller → Prop} (hm : ∀ a b, Move True a b → p a → p b) (h0 : ∀ a, p (.powerOn a)) :
    KeptByEveryStep p := by
  intro s t h hs
  unfold step at h
  split at h
  · rw [← Host.Outcome.next.inj h]; exact hm _ _ .tick hs
  · next c rest _ =>
    cases hc : isPowerOn c with
    | false => exact (exec_acts h hc).moves.any.keep hm hs
    | true =>
      cases c <;> try cases hc
      rw [← Host.Outcome.next.inj h]
      exact (poweredOn_acts _ _).moves.keep hm (h0 _)

end Sys2Proof.Machine
end

