-- ==== Sys2Proof/WellFormed.lean ====
section
/-! DEFINITION. Which commands are well formed: the frame they stand for can be on the wire, and it is a frame of their own
row. A command that is not well formed still has a meaning: its frame is handled as the frame it is (log entry 5). -/
namespace Sys2Proof

/-- Destination and source are node addresses, 0 to 63 (01, section 1.1). -/
def Header.wellFormed (h : Header) : Bool :=
  decide (h.destination.toNat < 64) && decide (h.source.toNat < 64)

/-- A frame of this header whose payload has `fixed` bytes named by the row and then `rest` (R1: at most 200 in all). -/
def wellFormedFrame (h : Header) (fixed : Nat) (rest : List Byte) : Bool :=
  h.wellFormed && decide (fixed + rest.length ≤ Config.maxPayload)

/-- The form of each command, whatever the state. -/
def Instr.wellFormed : Instr → Bool
  | .powerOn _ _ | .holdAsserted | .holdReleased | .rxLockLost | .rxLockRegained | .ringDown | .ringUp => true
  | .frameDiscarded _ | .forwardedFrame _ => true
  | .transmitterStart | .transmissionComplete | .returnTimeout => true
  | .blockTimeLimit _ | .dwellEnd _ | .sampleAgeLimit _ | .ventLimit _ => true
  | .returnMatching destination _ _ payload _ =>
    decide (destination.toNat < 64) && decide (payload.length ≤ Config.maxPayload)
  | .manageNotTaken h payload => wellFormedFrame h 0 payload
  | .manageUnsupported h payload =>
    wellFormedFrame h 0 payload &&
      match payload with
      | [] => true
      | kind :: _ => decide (kind.toNat < 1) || decide (6 < kind.toNat)
  | .entryTag h payload | .massReading h payload | .visualFindings h payload | .stampReport h payload
  | .scrapReport h payload | .jacketArrival h payload | .jacketSample h payload | .jacketClear h payload =>
    wellFormedFrame h 0 payload
  | .tableWrite h fields | .tableRead h fields | .recordView h fields | .registerList h fields =>
    wellFormedFrame h 1 fields
  | .start h fields | .stop h fields | .resume h fields | .restart h fields | .setDate h fields | .setConfig h fields
  | .jacketEnable h fields | .jacketDisable h fields | .jacketAbort h fields | .release h fields
  | .setNoticeEnables h fields | .testNotice h fields | .frozenFirst h fields | .frozenNext h fields =>
    wellFormedFrame h 2 fields
  | .jacketView h fields =>
    wellFormedFrame h 1 fields &&
      match fields with
      | [] => true
      | mode :: _ => !(mode == 1 || mode == 2)
  | .commandUnsupported h fields =>
    wellFormedFrame h 1 fields &&
      match fields with
      | [] => true
      | code :: _ => decide (code.toNat < 1) || decide (12 < code.toNat)

end Sys2Proof
end

