-- ==== Sys2Proof/Laws/PerInstr.lean ====
section
/-! SUPPORT. Family WellFormed: every field of a well-formed command has the width the wire gives it. One lemma per constructor. -/
namespace Sys2Proof.Laws.WellFormed

/-- The header a command's frame carries, if the command names one. -/
def header? : Instr → Option Header
  | .manageNotTaken h _ => some h
  | .manageUnsupported h _ => some h
  | .entryTag h _ => some h
  | .massReading h _ => some h
  | .visualFindings h _ => some h
  | .stampReport h _ => some h
  | .scrapReport h _ => some h
  | .jacketArrival h _ => some h
  | .jacketSample h _ => some h
  | .jacketClear h _ => some h
  | .tableWrite h _ => some h
  | .tableRead h _ => some h
  | .start h _ => some h
  | .stop h _ => some h
  | .resume h _ => some h
  | .restart h _ => some h
  | .setDate h _ => some h
  | .setConfig h _ => some h
  | .jacketEnable h _ => some h
  | .jacketDisable h _ => some h
  | .jacketAbort h _ => some h
  | .release h _ => some h
  | .setNoticeEnables h _ => some h
  | .testNotice h _ => some h
  | .jacketView h _ => some h
  | .frozenFirst h _ => some h
  | .frozenNext h _ => some h
  | .recordView h _ => some h
  | .registerList h _ => some h
  | .commandUnsupported h _ => some h
  | _ => none

/-- A well-formed command that names a header names two node addresses in it (01, section 1.1). -/
def Statement (i : Instr) : Prop :=
  i.wellFormed = true → ∀ h, header? i = some h → h.destination.toNat < 64 ∧ h.source.toNat < 64

theorem of_header {h : Header} (w : h.wellFormed = true) : h.destination.toNat < 64 ∧ h.source.toNat < 64 := by
  simpa [Header.wellFormed] using w

theorem of_frame {h : Header} {n : Nat} {l : List Byte} (w : wellFormedFrame h n l = true) :
    h.destination.toNat < 64 ∧ h.source.toNat < 64 :=
  of_header (Bool.and_eq_true_iff.mp w).1

theorem powerOn (straps : NodeAddress) (holdAsserted : Bool) : Statement (.powerOn straps holdAsserted) := fun _ _ e => nomatch e
theorem holdAsserted : Statement .holdAsserted := fun _ _ e => nomatch e
theorem holdReleased : Statement .holdReleased := fun _ _ e => nomatch e
theorem rxLockLost : Statement .rxLockLost := fun _ _ e => nomatch e
theorem rxLockRegained : Statement .rxLockRegained := fun _ _ e => nomatch e
theorem ringDown : Statement .ringDown := fun _ _ e => nomatch e
theorem ringUp : Statement .ringUp := fun _ _ e => nomatch e
theorem frameDiscarded (bytes : List Byte) : Statement (.frameDiscarded bytes) := fun _ _ e => nomatch e
theorem forwardedFrame (bytes : List Byte) : Statement (.forwardedFrame bytes) := fun _ _ e => nomatch e
theorem returnMatching (destination : Byte) (kind : Byte) (sequence : Byte) (payload : List Byte) (trailer : Byte) : Statement (.returnMatching destination kind sequence payload trailer) := fun _ _ e => nomatch e
theorem manageNotTaken (header : Header) (l : List Byte) : Statement (.manageNotTaken header l) :=
  fun w _ e => Option.some.inj e ▸ of_frame w
theorem manageUnsupported (header : Header) (l : List Byte) : Statement (.manageUnsupported header l) :=
  fun w _ e => Option.some.inj e ▸ of_frame (Bool.and_eq_true_iff.mp w).1
theorem entryTag (header : Header) (l : List Byte) : Statement (.entryTag header l) :=
  fun w _ e => Option.some.inj e ▸ of_frame w
theorem massReading (header : Header) (l : List Byte) : Statement (.massReading header l) :=
  fun w _ e => Option.some.inj e ▸ of_frame w
theorem visualFindings (header : Header) (l : List Byte) : Statement (.visualFindings header l) :=
  fun w _ e => Option.some.inj e ▸ of_frame w
theorem stampReport (header : Header) (l : List Byte) : Statement (.stampReport header l) :=
  fun w _ e => Option.some.inj e ▸ of_frame w
theorem scrapReport (header : Header) (l : List Byte) : Statement (.scrapReport header l) :=
  fun w _ e => Option.some.inj e ▸ of_frame w
theorem jacketArrival (header : Header) (l : List Byte) : Statement (.jacketArrival header l) :=
  fun w _ e => Option.some.inj e ▸ of_frame w
theorem jacketSample (header : Header) (l : List Byte) : Statement (.jacketSample header l) :=
  fun w _ e => Option.some.inj e ▸ of_frame w
theorem jacketClear (header : Header) (l : List Byte) : Statement (.jacketClear header l) :=
  fun w _ e => Option.some.inj e ▸ of_frame w
theorem transmitterStart : Statement .transmitterStart := fun _ _ e => nomatch e
theorem transmissionComplete : Statement .transmissionComplete := fun _ _ e => nomatch e
theorem returnTimeout : Statement .returnTimeout := fun _ _ e => nomatch e
theorem blockTimeLimit (jacket : JacketNo) : Statement (.blockTimeLimit jacket) := fun _ _ e => nomatch e
theorem dwellEnd (jacket : JacketNo) : Statement (.dwellEnd jacket) := fun _ _ e => nomatch e
theorem sampleAgeLimit (jacket : JacketNo) : Statement (.sampleAgeLimit jacket) := fun _ _ e => nomatch e
theorem ventLimit (jacket : JacketNo) : Statement (.ventLimit jacket) := fun _ _ e => nomatch e
theorem tableWrite (header : Header) (l : List Byte) : Statement (.tableWrite header l) :=
  fun w _ e => Option.some.inj e ▸ of_frame w
theorem tableRead (header : Header) (l : List Byte) : Statement (.tableRead header l) :=
  fun w _ e => Option.some.inj e ▸ of_frame w
theorem start (header : Header) (l : List Byte) : Statement (.start header l) :=
  fun w _ e => Option.some.inj e ▸ of_frame w
theorem stop (header : Header) (l : List Byte) : Statement (.stop header l) :=
  fun w _ e => Option.some.inj e ▸ of_frame w
theorem resume (header : Header) (l : List Byte) : Statement (.resume header l) :=
  fun w _ e => Option.some.inj e ▸ of_frame w
theorem restart (header : Header) (l : List Byte) : Statement (.restart header l) :=
  fun w _ e => Option.some.inj e ▸ of_frame w
theorem setDate (header : Header) (l : List Byte) : Statement (.setDate header l) :=
  fun w _ e => Option.some.inj e ▸ of_frame w
theorem setConfig (header : Header) (l : List Byte) : Statement (.setConfig header l) :=
  fun w _ e => Option.some.inj e ▸ of_frame w
theorem jacketEnable (header : Header) (l : List Byte) : Statement (.jacketEnable header l) :=
  fun w _ e => Option.some.inj e ▸ of_frame w
theorem jacketDisable (header : Header) (l : List Byte) : Statement (.jacketDisable header l) :=
  fun w _ e => Option.some.inj e ▸ of_frame w
theorem jacketAbort (header : Header) (l : List Byte) : Statement (.jacketAbort header l) :=
  fun w _ e => Option.some.inj e ▸ of_frame w
theorem release (header : Header) (l : List Byte) : Statement (.release header l) :=
  fun w _ e => Option.some.inj e ▸ of_frame w
theorem setNoticeEnables (header : Header) (l : List Byte) : Statement (.setNoticeEnables header l) :=
  fun w _ e => Option.some.inj e ▸ of_frame w
theorem testNotice (header : Header) (l : List Byte) : Statement (.testNotice header l) :=
  fun w _ e => Option.some.inj e ▸ of_frame w
theorem jacketView (header : Header) (l : List Byte) : Statement (.jacketView header l) :=
  fun w _ e => Option.some.inj e ▸ of_frame (Bool.and_eq_true_iff.mp w).1
theorem frozenFirst (header : Header) (l : List Byte) : Statement (.frozenFirst header l) :=
  fun w _ e => Option.some.inj e ▸ of_frame w
theorem frozenNext (header : Header) (l : List Byte) : Statement (.frozenNext header l) :=
  fun w _ e => Option.some.inj e ▸ of_frame w
theorem recordView (header : Header) (l : List Byte) : Statement (.recordView header l) :=
  fun w _ e => Option.some.inj e ▸ of_frame w
theorem registerList (header : Header) (l : List Byte) : Statement (.registerList header l) :=
  fun w _ e => Option.some.inj e ▸ of_frame w
theorem commandUnsupported (header : Header) (l : List Byte) : Statement (.commandUnsupported header l) :=
  fun w _ e => Option.some.inj e ▸ of_frame (Bool.and_eq_true_iff.mp w).1

end Sys2Proof.Laws.WellFormed
end

