-- ==== Sys2Proof/Laws/Records.lean ====
section
/-! SUPPORT. What the operations on one record leave alone: the judgment of the infeed mark and the notices touch no record, jacket, table or line
field; orders made by a record whose release is not pending, and the effects of a failed chain check, touch no record but that one (R82, R84); the
jacket passes touch no line, table or verification field while no two records share a slot (R80). -/
namespace Sys2Proof.Machine

/-- The jackets, the line, the tables, the verification fields and the records outside one slot are the same. -/
structure OnlySlot (slot : Nat) (c d : Controller) : Prop where
  jackets : d.jackets = c.jackets
  line : d.line = c.line
  tables : d.tables = c.tables
  verification : d.verification = c.verification
  others : d.records.filter (fun r => r.slot != slot) = c.records.filter (fun r => r.slot != slot)

theorem OnlySlot.refl {slot : Nat} {c : Controller} : OnlySlot slot c c := ⟨rfl, rfl, rfl, rfl, rfl⟩

theorem OnlySlot.trans {slot : Nat} {a b c : Controller} (h : OnlySlot slot a b) (k : OnlySlot slot b c) : OnlySlot slot a c :=
  ⟨k.jackets.trans h.jackets, k.line.trans h.line, k.tables.trans h.tables, k.verification.trans h.verification,
    k.others.trans h.others⟩

/-- A record of another slot is still there. -/
theorem OnlySlot.keeps {slot : Nat} {c d : Controller} (h : OnlySlot slot c d) {x : Record} (hx : x ∈ c.records)
    (hs : x.slot ≠ slot) : x ∈ d.records := by
  have hm : x ∈ c.records.filter (fun r => r.slot != slot) := List.mem_filter.mpr ⟨hx, by simpa using hs⟩
  rw [← h.others] at hm
  exact (List.mem_filter.mp hm).1

theorem updRecord_onlySlot (c : Controller) (slot : Nat) (f : Record → Record) (hf : ∀ r, (f r).slot = r.slot) :
    OnlySlot slot c (c.updRecord slot f) := by
  refine ⟨rfl, rfl, rfl, rfl, ?_⟩
  show (c.records.map fun r => if r.slot = slot then f r else r).filter _ = _
  induction c.records with
  | nil => rfl
  | cons r l ih =>
    by_cases h : r.slot = slot
    · simpa [h, hf] using ih
    · simpa [h] using ih

theorem offerInfeed_onlySlot (slot : Nat) (c : Controller) (o : InfeedOrder) (g : Origin) :
    OnlySlot slot c (c.offerInfeed o g) := by
  unfold Controller.offerInfeed; split <;> exact ⟨rfl, rfl, rfl, rfl, rfl⟩

theorem flipFrame_onlySlot (slot : Nat) (c : Controller) (freed : Bool) (v : MarkValue) :
    OnlySlot slot c (c.flipFrame freed v) := by
  have make : OnlySlot slot c (if freed then c.setMark { c.mark with owed := some { order := v.order, origin := .fresh } }
      else c.offerInfeed v.order .fresh) := by
    split
    · exact ⟨rfl, rfl, rfl, rfl, rfl⟩
    · exact offerInfeed_onlySlot _ _ _ _
  unfold Controller.flipFrame
  dsimp only
  split
  · exact make
  · split
    · exact .refl
    · split
      · exact ⟨rfl, rfl, rfl, rfl, rfl⟩
      · exact make

theorem putNotice_onlySlot (slot : Nat) (c : Controller) (cls : NoticeClass) : OnlySlot slot c (c.putNotice cls) :=
  ⟨rfl, rfl, rfl, rfl, rfl⟩

theorem raiseInfeedHeld_onlySlot (slot : Nat) (c : Controller) (k : Nat) : OnlySlot slot c (c.raiseInfeedHeld k) := by
  unfold Controller.raiseInfeedHeld
  dsimp only
  split <;> exact ⟨rfl, rfl, rfl, rfl, rfl⟩

/-- The judgment of the infeed mark touches no record, jacket, table or line field (R53). -/
theorem judge_onlySlot (slot : Nat) (c : Controller) (freed : Bool) : OnlySlot slot c (c.judge freed) := by
  unfold Controller.judge
  dsimp only
  split
  · exact ⟨rfl, rfl, rfl, rfl, rfl⟩
  · have set (m : InfeedMark) : OnlySlot slot c (c.setMark m) := ⟨rfl, rfl, rfl, rfl, rfl⟩
    have h := (set { c.mark with reasons := c.infeedReasons, value := c.infeedReasons.wanted }).trans
      (flipFrame_onlySlot slot _ freed c.infeedReasons.wanted)
    split
    · exact h.trans (raiseInfeedHeld_onlySlot _ _ _)
    · exact h

/-- A notice raised touches no record, jacket, table or line field (R178). -/
theorem raise_onlySlot (slot : Nat) (c : Controller) (cls : NoticeClass) (s k : Nat) : OnlySlot slot c (c.raise cls s k) := by
  unfold Controller.raise Controller.offerNotice
  refine OnlySlot.trans (b := c.markRaise cls s k false) ⟨rfl, rfl, rfl, rfl, rfl⟩ ?_
  split
  · exact (putNotice_onlySlot _ _ _).trans (judge_onlySlot _ _ _)
  · exact .refl

theorem offerOrders_onlySlot (slot : Nat) (serial : Serial) (l : List Order) :
    ∀ c : Controller, OnlySlot slot c (c.offerOrders slot serial l) := by
  induction l with
  | nil => exact fun _ => .refl
  | cons o rest ih =>
    intro c
    unfold Controller.offerOrders
    dsimp only
    split
    · refine OnlySlot.trans ?_ (ih _)
      refine OnlySlot.trans ?_ (judge_onlySlot _ _ _)
      exact (updRecord_onlySlot c slot (fun r => { r with owedOrders := rest }) fun _ => rfl).trans ⟨rfl, rfl, rfl, rfl, rfl⟩
    · exact .refl

theorem putResult_onlySlot (c : Controller) (slot : Nat) (serial : Serial) (l : LastResult) :
    OnlySlot slot c (c.putResult slot serial l) := by
  unfold Controller.putResult
  refine OnlySlot.trans ?_ (judge_onlySlot _ _ _)
  exact OnlySlot.trans (b := c.enqueue (.testResult serial l) (.record slot)) ⟨rfl, rfl, rfl, rfl, rfl⟩
    (updRecord_onlySlot _ slot _ fun _ => rfl)

/-- A record whose release is not pending offers what it owes, and no other record is touched (R8, R157). -/
theorem offerRecord_onlySlot (c : Controller) (slot : Nat) (h : ∀ r, c.recordAt slot = some r → r.releasePending = false) :
    OnlySlot slot c (c.offerRecord slot) := by
  unfold Controller.offerRecord Controller.offerRecordWith
  split
  · exact .refl
  · next r hr =>
    split
    · split
      · exact .refl
      · split
        · dsimp only
          rw [h r hr]
          exact (putResult_onlySlot _ _ _ _).trans (offerOrders_onlySlot _ _ _ _)
        · exact .refl
    · exact offerOrders_onlySlot _ _ _ _

theorem recordAt_updRecord (c : Controller) (slot : Nat) (f : Record → Record) (hf : ∀ r, (f r).slot = r.slot) :
    (c.updRecord slot f).recordAt slot = (c.recordAt slot).map f := by
  show (c.records.map fun r => if r.slot = slot then f r else r).find? _ = (c.records.find? _).map f
  induction c.records with
  | nil => rfl
  | cons r l ih =>
    by_cases h : r.slot = slot
    · simp [h, hf]
    · simpa [h] using ih

/-- An update that keeps a release not pending leaves it so. -/
theorem notPending_updRecord {c : Controller} {slot : Nat} (f : Record → Record)
    (hf : ∀ r, (f r).slot = r.slot ∧ (f r).releasePending = r.releasePending)
    (h : ∀ r, c.recordAt slot = some r → r.releasePending = false) :
    ∀ r, (c.updRecord slot f).recordAt slot = some r → r.releasePending = false := by
  intro r hr
  rw [recordAt_updRecord _ _ _ fun r => (hf r).1] at hr
  obtain ⟨x, hx, rfl⟩ := Option.map_eq_some_iff.mp hr
  rw [(hf x).2]
  exact h x hx

/-- The orders of a record whose release is not pending (R84, R157). -/
theorem makeOrders_onlySlot (c : Controller) (slot : Nat) (l : List Order)
    (h : ∀ r, c.recordAt slot = some r → r.releasePending = false) : OnlySlot slot c (c.makeOrders slot l) := by
  unfold Controller.makeOrders
  refine OnlySlot.trans ?_ (offerRecord_onlySlot _ _ ?_)
  · exact updRecord_onlySlot _ _ _ fun _ => rfl
  · exact notPending_updRecord _ (fun _ => ⟨rfl, rfl⟩) h

/-- A failed chain check touches no record but its own, and no jacket (R82). -/
theorem programFault_onlySlot (c : Controller) (r : Record)
    (h : ∀ x, c.recordAt r.slot = some x → x.releasePending = false) : OnlySlot r.slot c (c.programFault r) := by
  unfold Controller.programFault Controller.divert
  refine OnlySlot.trans ?_ (raise_onlySlot _ _ _ _ _)
  refine OnlySlot.trans ?_ (makeOrders_onlySlot _ _ _ ?_)
  · exact updRecord_onlySlot _ _ _ fun _ => rfl
  · exact notPending_updRecord _ (fun _ => ⟨rfl, rfl⟩) h

/-! ### The jacket passes -/

/-- No two records share a slot (R40). -/
def Controller.SlotsDistinct (c : Controller) : Prop := (c.records.map Record.slot).Nodup

theorem Change.slotsDistinct {c d : Controller} (h : Change c d) : c.SlotsDistinct → d.SlotsDistinct := by
  intro hc
  cases h with
  | record slot f hf =>
    have e : (c.records.map fun r => if r.slot = slot then f r else r).map Record.slot = c.records.map Record.slot := by
      rw [List.map_map]
      refine List.map_congr_left fun r _ => ?_
      show (if r.slot = slot then f r else r).slot = r.slot
      split
      · have := hf r
        simp only [Record.SameIdentity] at this
        simp [this]
      · rfl
    show ((c.records.map fun r => if r.slot = slot then f r else r).map Record.slot).Nodup
    rw [e]
    exact hc
  | drop slot => exact List.Nodup.sublist (List.Sublist.map _ List.filter_sublist) hc
  | _ => exact hc

theorem Changes.slotsDistinct {c d : Controller} (h : Changes c d) : c.SlotsDistinct → d.SlotsDistinct :=
  h.keep fun _ _ => Change.slotsDistinct

theorem recordAt_of_mem {c : Controller} (hc : c.SlotsDistinct) {r : Record} (hr : r ∈ c.records) :
    c.recordAt r.slot = some r := by
  unfold Controller.SlotsDistinct at hc
  unfold Controller.recordAt
  revert hc hr
  induction c.records with
  | nil => exact fun _ hr => nomatch hr
  | cons x l ih =>
    intro hc hr
    rw [List.map_cons, List.nodup_cons] at hc
    rcases List.mem_cons.mp hr with rfl | hl
    · simp
    · have : x.slot ≠ r.slot := fun e => hc.1 (e ▸ List.mem_map_of_mem hl)
      simpa [this] using ih hc.2 hl

/-- The line, the tables and the verification fields are the same. -/
structure OffLine (c d : Controller) : Prop where
  line : d.line = c.line
  tables : d.tables = c.tables
  verification : d.verification = c.verification

theorem OffLine.refl {c : Controller} : OffLine c c := ⟨rfl, rfl, rfl⟩

theorem OffLine.trans {a b c : Controller} (h : OffLine a b) (k : OffLine b c) : OffLine a c :=
  ⟨k.line.trans h.line, k.tables.trans h.tables, k.verification.trans h.verification⟩

theorem OnlySlot.offLine {slot : Nat} {c d : Controller} (h : OnlySlot slot c d) : OffLine c d := ⟨h.line, h.tables, h.verification⟩

/-- An assignment touches no line, table or verification field (R83). -/
theorem assign_offLine (c : Controller) (r : Record) (n : JacketNo)
    (h : ∀ x, c.recordAt r.slot = some x → x.releasePending = false) : OffLine c (c.assign r n) := by
  unfold Controller.assign
  refine OffLine.trans ?_ (makeOrders_onlySlot _ _ _ ?_).offLine
  · exact ⟨rfl, rfl, rfl⟩
  · exact notPending_updRecord (fun r => { r with state := .routed, jacket := some n }) (fun _ => ⟨rfl, rfl⟩) h

theorem recordFor_notPending {c : Controller} (hc : c.SlotsDistinct) {n : JacketNo} {r : Record} (hr : c.recordFor n = some r) :
    ∀ x, c.recordAt r.slot = some x → x.releasePending = false := by
  intro x hx
  have hm := List.mem_filter.mp (List.mem_of_find?_eq_some hr)
  rw [recordAt_of_mem hc hm.1] at hx
  obtain rfl := Option.some.inj hx
  have := hm.2
  simp only [Record.isWaiting, Bool.and_eq_true, Bool.not_eq_true'] at this
  exact this.2

/-- A jacket pass touches no line, table or verification field (R80, R82). -/
theorem jacketPass_offLine {c : Controller} (hc : c.SlotsDistinct) (n : JacketNo) : OffLine c (c.jacketPass n) := by
  have depth : ∀ (k : Nat) (c : Controller), c.SlotsDistinct → OffLine c (Controller.jacketPassDepth k c n) := by
    intro k
    induction k with
    | zero => exact fun _ _ => .refl
    | succ k ih =>
      intro c hc
      unfold Controller.jacketPassDepth
      split
      · exact .refl
      · next r hr =>
        split
        · exact assign_offLine _ _ _ (recordFor_notPending hc hr)
        · exact (programFault_onlySlot c r (recordFor_notPending hc hr)).offLine.trans
            (ih _ ((programFault_settles c r).changes.slotsDistinct hc))
  unfold Controller.jacketPass
  split
  · exact depth _ c hc
  · exact .refl

/-- The jacket passes made when the line becomes RUNNING or STOPPING touch no line, table or verification field (R81). -/
theorem jacketPasses_offLine {c : Controller} (hc : c.SlotsDistinct) : OffLine c c.jacketPasses := by
  unfold Controller.jacketPasses
  generalize jacketNumbers = l
  induction l generalizing c with
  | nil => exact .refl
  | cons n l ih => exact (jacketPass_offLine hc n).trans (ih ((jacketPass_settles c n).changes.slotsDistinct hc))

/-- An accepted STOP leaves a line with records STOPPING (R171). -/
theorem stopLine_stopping {c : Controller} (hc : c.SlotsDistinct) (s : c.line.state = .running) (h : c.records ≠ []) :
    ∃ d, c.stopLine = .ok d ∧ d.line = { c.line with state := .stopping } := by
  refine ⟨((c.setLineState .stopping).judge false).jacketPasses, ?_, ?_⟩
  · unfold Controller.stopLine
    rw [if_neg (fun e => e s), if_neg h]
  · have j : ((c.setLineState .stopping).judge false).SlotsDistinct :=
      (judge_settles false (c.setLineState .stopping)).changes.slotsDistinct hc
    rw [(jacketPasses_offLine j).line, (judge_onlySlot 0 (c.setLineState .stopping) false).line]
    rfl

end Sys2Proof.Machine
end

