-- ==== Sys2Proof/Laws/State.lean ====
section
/-! SUPPORT. What each update leaves and what it writes, one lemma per field, all by unfolding. No later proof needs to unfold a record update. -/
namespace Sys2Proof.Machine

/-! ### updJacket -/

@[simp] theorem updJacket_ring (c : Controller) (n : JacketNo) (f : Jacket → Jacket) : (c.updJacket n f).ring = c.ring := rfl
@[simp] theorem updJacket_tables (c : Controller) (n : JacketNo) (f : Jacket → Jacket) : (c.updJacket n f).tables = c.tables := rfl
@[simp] theorem updJacket_records (c : Controller) (n : JacketNo) (f : Jacket → Jacket) : (c.updJacket n f).records = c.records := rfl
@[simp] theorem updJacket_mark (c : Controller) (n : JacketNo) (f : Jacket → Jacket) : (c.updJacket n f).mark = c.mark := rfl
@[simp] theorem updJacket_verification (c : Controller) (n : JacketNo) (f : Jacket → Jacket) : (c.updJacket n f).verification = c.verification := rfl
@[simp] theorem updJacket_line (c : Controller) (n : JacketNo) (f : Jacket → Jacket) : (c.updJacket n f).line = c.line := rfl
@[simp] theorem updJacket_notices (c : Controller) (n : JacketNo) (f : Jacket → Jacket) : (c.updJacket n f).notices = c.notices := rfl
@[simp] theorem updJacket_responder (c : Controller) (n : JacketNo) (f : Jacket → Jacket) : (c.updJacket n f).responder = c.responder := rfl

/-! ### updVerif -/

@[simp] theorem updVerif_ring (c : Controller) (n : JacketNo) (f : Verification → Verification) : (c.updVerif n f).ring = c.ring := rfl
@[simp] theorem updVerif_tables (c : Controller) (n : JacketNo) (f : Verification → Verification) : (c.updVerif n f).tables = c.tables := rfl
@[simp] theorem updVerif_records (c : Controller) (n : JacketNo) (f : Verification → Verification) : (c.updVerif n f).records = c.records := rfl
@[simp] theorem updVerif_mark (c : Controller) (n : JacketNo) (f : Verification → Verification) : (c.updVerif n f).mark = c.mark := rfl
@[simp] theorem updVerif_jackets (c : Controller) (n : JacketNo) (f : Verification → Verification) : (c.updVerif n f).jackets = c.jackets := rfl
@[simp] theorem updVerif_line (c : Controller) (n : JacketNo) (f : Verification → Verification) : (c.updVerif n f).line = c.line := rfl
@[simp] theorem updVerif_notices (c : Controller) (n : JacketNo) (f : Verification → Verification) : (c.updVerif n f).notices = c.notices := rfl
@[simp] theorem updVerif_responder (c : Controller) (n : JacketNo) (f : Verification → Verification) : (c.updVerif n f).responder = c.responder := rfl

/-! ### updNotice -/

@[simp] theorem updNotice_ring (c : Controller) (k : NoticeClass) (f : Notice → Notice) : (c.updNotice k f).ring = c.ring := rfl
@[simp] theorem updNotice_tables (c : Controller) (k : NoticeClass) (f : Notice → Notice) : (c.updNotice k f).tables = c.tables := rfl
@[simp] theorem updNotice_records (c : Controller) (k : NoticeClass) (f : Notice → Notice) : (c.updNotice k f).records = c.records := rfl
@[simp] theorem updNotice_mark (c : Controller) (k : NoticeClass) (f : Notice → Notice) : (c.updNotice k f).mark = c.mark := rfl
@[simp] theorem updNotice_jackets (c : Controller) (k : NoticeClass) (f : Notice → Notice) : (c.updNotice k f).jackets = c.jackets := rfl
@[simp] theorem updNotice_verification (c : Controller) (k : NoticeClass) (f : Notice → Notice) : (c.updNotice k f).verification = c.verification := rfl
@[simp] theorem updNotice_line (c : Controller) (k : NoticeClass) (f : Notice → Notice) : (c.updNotice k f).line = c.line := rfl
@[simp] theorem updNotice_responder (c : Controller) (k : NoticeClass) (f : Notice → Notice) : (c.updNotice k f).responder = c.responder := rfl

/-! ### updRecord -/

@[simp] theorem updRecord_ring (c : Controller) (n : Nat) (f : Record → Record) : (c.updRecord n f).ring = c.ring := rfl
@[simp] theorem updRecord_tables (c : Controller) (n : Nat) (f : Record → Record) : (c.updRecord n f).tables = c.tables := rfl
@[simp] theorem updRecord_mark (c : Controller) (n : Nat) (f : Record → Record) : (c.updRecord n f).mark = c.mark := rfl
@[simp] theorem updRecord_jackets (c : Controller) (n : Nat) (f : Record → Record) : (c.updRecord n f).jackets = c.jackets := rfl
@[simp] theorem updRecord_verification (c : Controller) (n : Nat) (f : Record → Record) : (c.updRecord n f).verification = c.verification := rfl
@[simp] theorem updRecord_line (c : Controller) (n : Nat) (f : Record → Record) : (c.updRecord n f).line = c.line := rfl
@[simp] theorem updRecord_notices (c : Controller) (n : Nat) (f : Record → Record) : (c.updRecord n f).notices = c.notices := rfl
@[simp] theorem updRecord_responder (c : Controller) (n : Nat) (f : Record → Record) : (c.updRecord n f).responder = c.responder := rfl

/-! ### setQueue -/

@[simp] theorem setQueue_tables (c : Controller) (q : List QueueEntry) : (c.setQueue q).tables = c.tables := rfl
@[simp] theorem setQueue_records (c : Controller) (q : List QueueEntry) : (c.setQueue q).records = c.records := rfl
@[simp] theorem setQueue_mark (c : Controller) (q : List QueueEntry) : (c.setQueue q).mark = c.mark := rfl
@[simp] theorem setQueue_jackets (c : Controller) (q : List QueueEntry) : (c.setQueue q).jackets = c.jackets := rfl
@[simp] theorem setQueue_verification (c : Controller) (q : List QueueEntry) : (c.setQueue q).verification = c.verification := rfl
@[simp] theorem setQueue_line (c : Controller) (q : List QueueEntry) : (c.setQueue q).line = c.line := rfl
@[simp] theorem setQueue_notices (c : Controller) (q : List QueueEntry) : (c.setQueue q).notices = c.notices := rfl
@[simp] theorem setQueue_responder (c : Controller) (q : List QueueEntry) : (c.setQueue q).responder = c.responder := rfl

/-! ### setOutstanding -/

@[simp] theorem setOutstanding_tables (c : Controller) (l : List OutEntry) : (c.setOutstanding l).tables = c.tables := rfl
@[simp] theorem setOutstanding_records (c : Controller) (l : List OutEntry) : (c.setOutstanding l).records = c.records := rfl
@[simp] theorem setOutstanding_mark (c : Controller) (l : List OutEntry) : (c.setOutstanding l).mark = c.mark := rfl
@[simp] theorem setOutstanding_jackets (c : Controller) (l : List OutEntry) : (c.setOutstanding l).jackets = c.jackets := rfl
@[simp] theorem setOutstanding_verification (c : Controller) (l : List OutEntry) : (c.setOutstanding l).verification = c.verification := rfl
@[simp] theorem setOutstanding_line (c : Controller) (l : List OutEntry) : (c.setOutstanding l).line = c.line := rfl
@[simp] theorem setOutstanding_notices (c : Controller) (l : List OutEntry) : (c.setOutstanding l).notices = c.notices := rfl
@[simp] theorem setOutstanding_responder (c : Controller) (l : List OutEntry) : (c.setOutstanding l).responder = c.responder := rfl

/-! ### setForward -/

@[simp] theorem setForward_tables (c : Controller) (l : List (List Byte)) : (c.setForward l).tables = c.tables := rfl
@[simp] theorem setForward_records (c : Controller) (l : List (List Byte)) : (c.setForward l).records = c.records := rfl
@[simp] theorem setForward_mark (c : Controller) (l : List (List Byte)) : (c.setForward l).mark = c.mark := rfl
@[simp] theorem setForward_jackets (c : Controller) (l : List (List Byte)) : (c.setForward l).jackets = c.jackets := rfl
@[simp] theorem setForward_verification (c : Controller) (l : List (List Byte)) : (c.setForward l).verification = c.verification := rfl
@[simp] theorem setForward_line (c : Controller) (l : List (List Byte)) : (c.setForward l).line = c.line := rfl
@[simp] theorem setForward_notices (c : Controller) (l : List (List Byte)) : (c.setForward l).notices = c.notices := rfl
@[simp] theorem setForward_responder (c : Controller) (l : List (List Byte)) : (c.setForward l).responder = c.responder := rfl

/-! ### setRingStatus -/

@[simp] theorem setRingStatus_tables (c : Controller) (x : RingStatus) : (c.setRingStatus x).tables = c.tables := rfl
@[simp] theorem setRingStatus_records (c : Controller) (x : RingStatus) : (c.setRingStatus x).records = c.records := rfl
@[simp] theorem setRingStatus_mark (c : Controller) (x : RingStatus) : (c.setRingStatus x).mark = c.mark := rfl
@[simp] theorem setRingStatus_jackets (c : Controller) (x : RingStatus) : (c.setRingStatus x).jackets = c.jackets := rfl
@[simp] theorem setRingStatus_verification (c : Controller) (x : RingStatus) : (c.setRingStatus x).verification = c.verification := rfl
@[simp] theorem setRingStatus_line (c : Controller) (x : RingStatus) : (c.setRingStatus x).line = c.line := rfl
@[simp] theorem setRingStatus_notices (c : Controller) (x : RingStatus) : (c.setRingStatus x).notices = c.notices := rfl
@[simp] theorem setRingStatus_responder (c : Controller) (x : RingStatus) : (c.setRingStatus x).responder = c.responder := rfl

/-! ### enqueue -/

@[simp] theorem enqueue_tables (c : Controller) (b : Body) (o : Owner) (k m : Bool) : (c.enqueue b o k m).tables = c.tables := rfl
@[simp] theorem enqueue_records (c : Controller) (b : Body) (o : Owner) (k m : Bool) : (c.enqueue b o k m).records = c.records := rfl
@[simp] theorem enqueue_mark (c : Controller) (b : Body) (o : Owner) (k m : Bool) : (c.enqueue b o k m).mark = c.mark := rfl
@[simp] theorem enqueue_jackets (c : Controller) (b : Body) (o : Owner) (k m : Bool) : (c.enqueue b o k m).jackets = c.jackets := rfl
@[simp] theorem enqueue_verification (c : Controller) (b : Body) (o : Owner) (k m : Bool) : (c.enqueue b o k m).verification = c.verification := rfl
@[simp] theorem enqueue_line (c : Controller) (b : Body) (o : Owner) (k m : Bool) : (c.enqueue b o k m).line = c.line := rfl
@[simp] theorem enqueue_notices (c : Controller) (b : Body) (o : Owner) (k m : Bool) : (c.enqueue b o k m).notices = c.notices := rfl
@[simp] theorem enqueue_responder (c : Controller) (b : Body) (o : Owner) (k m : Bool) : (c.enqueue b o k m).responder = c.responder := rfl

/-! ### placeForward -/

@[simp] theorem placeForward_tables (c : Controller) (b : List Byte) : (c.placeForward b).tables = c.tables := rfl
@[simp] theorem placeForward_records (c : Controller) (b : List Byte) : (c.placeForward b).records = c.records := rfl
@[simp] theorem placeForward_mark (c : Controller) (b : List Byte) : (c.placeForward b).mark = c.mark := rfl
@[simp] theorem placeForward_jackets (c : Controller) (b : List Byte) : (c.placeForward b).jackets = c.jackets := rfl
@[simp] theorem placeForward_verification (c : Controller) (b : List Byte) : (c.placeForward b).verification = c.verification := rfl
@[simp] theorem placeForward_line (c : Controller) (b : List Byte) : (c.placeForward b).line = c.line := rfl
@[simp] theorem placeForward_notices (c : Controller) (b : List Byte) : (c.placeForward b).notices = c.notices := rfl
@[simp] theorem placeForward_responder (c : Controller) (b : List Byte) : (c.placeForward b).responder = c.responder := rfl

/-! ### startForwarded -/

@[simp] theorem startForwarded_tables (c : Controller) (k : Nat) : (c.startForwarded k).tables = c.tables := rfl
@[simp] theorem startForwarded_records (c : Controller) (k : Nat) : (c.startForwarded k).records = c.records := rfl
@[simp] theorem startForwarded_mark (c : Controller) (k : Nat) : (c.startForwarded k).mark = c.mark := rfl
@[simp] theorem startForwarded_jackets (c : Controller) (k : Nat) : (c.startForwarded k).jackets = c.jackets := rfl
@[simp] theorem startForwarded_verification (c : Controller) (k : Nat) : (c.startForwarded k).verification = c.verification := rfl
@[simp] theorem startForwarded_line (c : Controller) (k : Nat) : (c.startForwarded k).line = c.line := rfl
@[simp] theorem startForwarded_notices (c : Controller) (k : Nat) : (c.startForwarded k).notices = c.notices := rfl
@[simp] theorem startForwarded_responder (c : Controller) (k : Nat) : (c.startForwarded k).responder = c.responder := rfl

/-! ### setMark -/

@[simp] theorem setMark_ring (c : Controller) (m : InfeedMark) : (c.setMark m).ring = c.ring := rfl
@[simp] theorem setMark_tables (c : Controller) (m : InfeedMark) : (c.setMark m).tables = c.tables := rfl
@[simp] theorem setMark_records (c : Controller) (m : InfeedMark) : (c.setMark m).records = c.records := rfl
@[simp] theorem setMark_jackets (c : Controller) (m : InfeedMark) : (c.setMark m).jackets = c.jackets := rfl
@[simp] theorem setMark_verification (c : Controller) (m : InfeedMark) : (c.setMark m).verification = c.verification := rfl
@[simp] theorem setMark_line (c : Controller) (m : InfeedMark) : (c.setMark m).line = c.line := rfl
@[simp] theorem setMark_notices (c : Controller) (m : InfeedMark) : (c.setMark m).notices = c.notices := rfl
@[simp] theorem setMark_responder (c : Controller) (m : InfeedMark) : (c.setMark m).responder = c.responder := rfl

/-! ### refreshReasons -/

@[simp] theorem refreshReasons_ring (c : Controller) : (c.refreshReasons).ring = c.ring := rfl
@[simp] theorem refreshReasons_tables (c : Controller) : (c.refreshReasons).tables = c.tables := rfl
@[simp] theorem refreshReasons_records (c : Controller) : (c.refreshReasons).records = c.records := rfl
@[simp] theorem refreshReasons_jackets (c : Controller) : (c.refreshReasons).jackets = c.jackets := rfl
@[simp] theorem refreshReasons_verification (c : Controller) : (c.refreshReasons).verification = c.verification := rfl
@[simp] theorem refreshReasons_line (c : Controller) : (c.refreshReasons).line = c.line := rfl
@[simp] theorem refreshReasons_notices (c : Controller) : (c.refreshReasons).notices = c.notices := rfl
@[simp] theorem refreshReasons_responder (c : Controller) : (c.refreshReasons).responder = c.responder := rfl

/-! ### setLineState -/

@[simp] theorem setLineState_ring (c : Controller) (x : LineState) : (c.setLineState x).ring = c.ring := rfl
@[simp] theorem setLineState_tables (c : Controller) (x : LineState) : (c.setLineState x).tables = c.tables := rfl
@[simp] theorem setLineState_records (c : Controller) (x : LineState) : (c.setLineState x).records = c.records := rfl
@[simp] theorem setLineState_mark (c : Controller) (x : LineState) : (c.setLineState x).mark = c.mark := rfl
@[simp] theorem setLineState_jackets (c : Controller) (x : LineState) : (c.setLineState x).jackets = c.jackets := rfl
@[simp] theorem setLineState_verification (c : Controller) (x : LineState) : (c.setLineState x).verification = c.verification := rfl
@[simp] theorem setLineState_notices (c : Controller) (x : LineState) : (c.setLineState x).notices = c.notices := rfl
@[simp] theorem setLineState_responder (c : Controller) (x : LineState) : (c.setLineState x).responder = c.responder := rfl

/-! ### setBuffer -/

@[simp] theorem setBuffer_ring (c : Controller) (b : ReplyBuffer) : (c.setBuffer b).ring = c.ring := rfl
@[simp] theorem setBuffer_tables (c : Controller) (b : ReplyBuffer) : (c.setBuffer b).tables = c.tables := rfl
@[simp] theorem setBuffer_records (c : Controller) (b : ReplyBuffer) : (c.setBuffer b).records = c.records := rfl
@[simp] theorem setBuffer_mark (c : Controller) (b : ReplyBuffer) : (c.setBuffer b).mark = c.mark := rfl
@[simp] theorem setBuffer_jackets (c : Controller) (b : ReplyBuffer) : (c.setBuffer b).jackets = c.jackets := rfl
@[simp] theorem setBuffer_verification (c : Controller) (b : ReplyBuffer) : (c.setBuffer b).verification = c.verification := rfl
@[simp] theorem setBuffer_line (c : Controller) (b : ReplyBuffer) : (c.setBuffer b).line = c.line := rfl
@[simp] theorem setBuffer_notices (c : Controller) (b : ReplyBuffer) : (c.setBuffer b).notices = c.notices := rfl

/-! ### setFrozen -/

@[simp] theorem setFrozen_ring (c : Controller) (f : Option FrozenViews) : (c.setFrozen f).ring = c.ring := rfl
@[simp] theorem setFrozen_tables (c : Controller) (f : Option FrozenViews) : (c.setFrozen f).tables = c.tables := rfl
@[simp] theorem setFrozen_records (c : Controller) (f : Option FrozenViews) : (c.setFrozen f).records = c.records := rfl
@[simp] theorem setFrozen_mark (c : Controller) (f : Option FrozenViews) : (c.setFrozen f).mark = c.mark := rfl
@[simp] theorem setFrozen_jackets (c : Controller) (f : Option FrozenViews) : (c.setFrozen f).jackets = c.jackets := rfl
@[simp] theorem setFrozen_verification (c : Controller) (f : Option FrozenViews) : (c.setFrozen f).verification = c.verification := rfl
@[simp] theorem setFrozen_line (c : Controller) (f : Option FrozenViews) : (c.setFrozen f).line = c.line := rfl
@[simp] theorem setFrozen_notices (c : Controller) (f : Option FrozenViews) : (c.setFrozen f).notices = c.notices := rfl

/-! ### setTables -/

@[simp] theorem setTables_ring (c : Controller) (t : Tables) : (c.setTables t).ring = c.ring := rfl
@[simp] theorem setTables_records (c : Controller) (t : Tables) : (c.setTables t).records = c.records := rfl
@[simp] theorem setTables_mark (c : Controller) (t : Tables) : (c.setTables t).mark = c.mark := rfl
@[simp] theorem setTables_jackets (c : Controller) (t : Tables) : (c.setTables t).jackets = c.jackets := rfl
@[simp] theorem setTables_verification (c : Controller) (t : Tables) : (c.setTables t).verification = c.verification := rfl
@[simp] theorem setTables_line (c : Controller) (t : Tables) : (c.setTables t).line = c.line := rfl
@[simp] theorem setTables_notices (c : Controller) (t : Tables) : (c.setTables t).notices = c.notices := rfl
@[simp] theorem setTables_responder (c : Controller) (t : Tables) : (c.setTables t).responder = c.responder := rfl

/-! ### markRaise -/

@[simp] theorem markRaise_ring (c : Controller) (k : NoticeClass) (x y : Nat) (z : Bool) : (c.markRaise k x y z).ring = c.ring := rfl
@[simp] theorem markRaise_tables (c : Controller) (k : NoticeClass) (x y : Nat) (z : Bool) : (c.markRaise k x y z).tables = c.tables := rfl
@[simp] theorem markRaise_records (c : Controller) (k : NoticeClass) (x y : Nat) (z : Bool) : (c.markRaise k x y z).records = c.records := rfl
@[simp] theorem markRaise_mark (c : Controller) (k : NoticeClass) (x y : Nat) (z : Bool) : (c.markRaise k x y z).mark = c.mark := rfl
@[simp] theorem markRaise_jackets (c : Controller) (k : NoticeClass) (x y : Nat) (z : Bool) : (c.markRaise k x y z).jackets = c.jackets := rfl
@[simp] theorem markRaise_verification (c : Controller) (k : NoticeClass) (x y : Nat) (z : Bool) : (c.markRaise k x y z).verification = c.verification := rfl
@[simp] theorem markRaise_line (c : Controller) (k : NoticeClass) (x y : Nat) (z : Bool) : (c.markRaise k x y z).line = c.line := rfl
@[simp] theorem markRaise_responder (c : Controller) (k : NoticeClass) (x y : Nat) (z : Bool) : (c.markRaise k x y z).responder = c.responder := rfl

/-! ### The fields of the Ring Port -/

@[simp] theorem setQueue_ring_nodeAddress (c : Controller) (q : List QueueEntry) : (c.setQueue q).ring.nodeAddress = c.ring.nodeAddress := rfl
@[simp] theorem setQueue_ring_status (c : Controller) (q : List QueueEntry) : (c.setQueue q).ring.status = c.ring.status := rfl
@[simp] theorem setQueue_ring_locked (c : Controller) (q : List QueueEntry) : (c.setQueue q).ring.locked = c.ring.locked := rfl
@[simp] theorem setQueue_ring_lockCount (c : Controller) (q : List QueueEntry) : (c.setQueue q).ring.lockCount = c.ring.lockCount := rfl
@[simp] theorem setQueue_ring_forward (c : Controller) (q : List QueueEntry) : (c.setQueue q).ring.forward = c.ring.forward := rfl
@[simp] theorem setQueue_ring_queue (c : Controller) (q : List QueueEntry) : (c.setQueue q).ring.queue = q := rfl
@[simp] theorem setQueue_ring_outstanding (c : Controller) (q : List QueueEntry) : (c.setQueue q).ring.outstanding = c.ring.outstanding := rfl
@[simp] theorem setQueue_ring_transmitter (c : Controller) (q : List QueueEntry) : (c.setQueue q).ring.transmitter = c.ring.transmitter := rfl
@[simp] theorem setQueue_ring_streak (c : Controller) (q : List QueueEntry) : (c.setQueue q).ring.streak = c.ring.streak := rfl
@[simp] theorem setQueue_ring_sequence (c : Controller) (q : List QueueEntry) : (c.setQueue q).ring.sequence = c.ring.sequence := rfl
@[simp] theorem setQueue_ring_clock (c : Controller) (q : List QueueEntry) : (c.setQueue q).ring.clock = c.ring.clock := rfl

@[simp] theorem setOutstanding_ring_nodeAddress (c : Controller) (l : List OutEntry) : (c.setOutstanding l).ring.nodeAddress = c.ring.nodeAddress := rfl
@[simp] theorem setOutstanding_ring_status (c : Controller) (l : List OutEntry) : (c.setOutstanding l).ring.status = c.ring.status := rfl
@[simp] theorem setOutstanding_ring_locked (c : Controller) (l : List OutEntry) : (c.setOutstanding l).ring.locked = c.ring.locked := rfl
@[simp] theorem setOutstanding_ring_lockCount (c : Controller) (l : List OutEntry) : (c.setOutstanding l).ring.lockCount = c.ring.lockCount := rfl
@[simp] theorem setOutstanding_ring_forward (c : Controller) (l : List OutEntry) : (c.setOutstanding l).ring.forward = c.ring.forward := rfl
@[simp] theorem setOutstanding_ring_queue (c : Controller) (l : List OutEntry) : (c.setOutstanding l).ring.queue = c.ring.queue := rfl
@[simp] theorem setOutstanding_ring_outstanding (c : Controller) (l : List OutEntry) : (c.setOutstanding l).ring.outstanding = l := rfl
@[simp] theorem setOutstanding_ring_transmitter (c : Controller) (l : List OutEntry) : (c.setOutstanding l).ring.transmitter = c.ring.transmitter := rfl
@[simp] theorem setOutstanding_ring_streak (c : Controller) (l : List OutEntry) : (c.setOutstanding l).ring.streak = c.ring.streak := rfl
@[simp] theorem setOutstanding_ring_sequence (c : Controller) (l : List OutEntry) : (c.setOutstanding l).ring.sequence = c.ring.sequence := rfl
@[simp] theorem setOutstanding_ring_clock (c : Controller) (l : List OutEntry) : (c.setOutstanding l).ring.clock = c.ring.clock := rfl

@[simp] theorem setForward_ring_nodeAddress (c : Controller) (l : List (List Byte)) : (c.setForward l).ring.nodeAddress = c.ring.nodeAddress := rfl
@[simp] theorem setForward_ring_status (c : Controller) (l : List (List Byte)) : (c.setForward l).ring.status = c.ring.status := rfl
@[simp] theorem setForward_ring_locked (c : Controller) (l : List (List Byte)) : (c.setForward l).ring.locked = c.ring.locked := rfl
@[simp] theorem setForward_ring_lockCount (c : Controller) (l : List (List Byte)) : (c.setForward l).ring.lockCount = c.ring.lockCount := rfl
@[simp] theorem setForward_ring_forward (c : Controller) (l : List (List Byte)) : (c.setForward l).ring.forward = l := rfl
@[simp] theorem setForward_ring_queue (c : Controller) (l : List (List Byte)) : (c.setForward l).ring.queue = c.ring.queue := rfl
@[simp] theorem setForward_ring_outstanding (c : Controller) (l : List (List Byte)) : (c.setForward l).ring.outstanding = c.ring.outstanding := rfl
@[simp] theorem setForward_ring_transmitter (c : Controller) (l : List (List Byte)) : (c.setForward l).ring.transmitter = c.ring.transmitter := rfl
@[simp] theorem setForward_ring_streak (c : Controller) (l : List (List Byte)) : (c.setForward l).ring.streak = c.ring.streak := rfl
@[simp] theorem setForward_ring_sequence (c : Controller) (l : List (List Byte)) : (c.setForward l).ring.sequence = c.ring.sequence := rfl
@[simp] theorem setForward_ring_clock (c : Controller) (l : List (List Byte)) : (c.setForward l).ring.clock = c.ring.clock := rfl

@[simp] theorem setRingStatus_ring_nodeAddress (c : Controller) (x : RingStatus) : (c.setRingStatus x).ring.nodeAddress = c.ring.nodeAddress := rfl
@[simp] theorem setRingStatus_ring_status (c : Controller) (x : RingStatus) : (c.setRingStatus x).ring.status = x := rfl
@[simp] theorem setRingStatus_ring_locked (c : Controller) (x : RingStatus) : (c.setRingStatus x).ring.locked = c.ring.locked := rfl
@[simp] theorem setRingStatus_ring_lockCount (c : Controller) (x : RingStatus) : (c.setRingStatus x).ring.lockCount = c.ring.lockCount := rfl
@[simp] theorem setRingStatus_ring_forward (c : Controller) (x : RingStatus) : (c.setRingStatus x).ring.forward = c.ring.forward := rfl
@[simp] theorem setRingStatus_ring_queue (c : Controller) (x : RingStatus) : (c.setRingStatus x).ring.queue = c.ring.queue := rfl
@[simp] theorem setRingStatus_ring_outstanding (c : Controller) (x : RingStatus) : (c.setRingStatus x).ring.outstanding = c.ring.outstanding := rfl
@[simp] theorem setRingStatus_ring_transmitter (c : Controller) (x : RingStatus) : (c.setRingStatus x).ring.transmitter = c.ring.transmitter := rfl
@[simp] theorem setRingStatus_ring_streak (c : Controller) (x : RingStatus) : (c.setRingStatus x).ring.streak = c.ring.streak := rfl
@[simp] theorem setRingStatus_ring_sequence (c : Controller) (x : RingStatus) : (c.setRingStatus x).ring.sequence = c.ring.sequence := rfl
@[simp] theorem setRingStatus_ring_clock (c : Controller) (x : RingStatus) : (c.setRingStatus x).ring.clock = c.ring.clock := rfl

@[simp] theorem enqueue_ring_queue (c : Controller) (b : Body) (o : Owner) (k m : Bool) :
    (c.enqueue b o k m).ring.queue = c.ring.queue ++ [{ destination := c.destinationOf b, body := b, owner := o, clearedEnable := k, testMark := m }] := rfl
@[simp] theorem enqueue_ring_outstanding (c : Controller) (b : Body) (o : Owner) (k m : Bool) :
    (c.enqueue b o k m).ring.outstanding = c.ring.outstanding := rfl
@[simp] theorem placeForward_ring_forward (c : Controller) (b : List Byte) : (c.placeForward b).ring.forward = c.ring.forward ++ [b] := rfl
@[simp] theorem placeForward_ring_queue (c : Controller) (b : List Byte) : (c.placeForward b).ring.queue = c.ring.queue := rfl
@[simp] theorem placeForward_ring_outstanding (c : Controller) (b : List Byte) : (c.placeForward b).ring.outstanding = c.ring.outstanding := rfl
@[simp] theorem placeForward_ring_nodeAddress (c : Controller) (b : List Byte) : (c.placeForward b).ring.nodeAddress = c.ring.nodeAddress := rfl

/-! ### The fields an update writes -/

@[simp] theorem setMark_mark (c : Controller) (m : InfeedMark) : (c.setMark m).mark = m := rfl
@[simp] theorem setTables_tables (c : Controller) (t : Tables) : (c.setTables t).tables = t := rfl
@[simp] theorem setLineState_line_state (c : Controller) (x : LineState) : (c.setLineState x).line.state = x := rfl
@[simp] theorem setLineState_line_holdFrom (c : Controller) (x : LineState) : (c.setLineState x).line.holdFrom = c.line.holdFrom := rfl
@[simp] theorem setLineState_line_date (c : Controller) (x : LineState) : (c.setLineState x).line.date = c.line.date := rfl
@[simp] theorem setLineState_line_items (c : Controller) (x : LineState) : (c.setLineState x).line.items = c.line.items := rfl
@[simp] theorem setBuffer_responder_buffer (c : Controller) (b : ReplyBuffer) : (c.setBuffer b).responder.buffer = b := rfl
@[simp] theorem setBuffer_responder_frozen (c : Controller) (b : ReplyBuffer) : (c.setBuffer b).responder.frozen = c.responder.frozen := rfl
@[simp] theorem setFrozen_responder_frozen (c : Controller) (f : Option FrozenViews) : (c.setFrozen f).responder.frozen = f := rfl
@[simp] theorem setFrozen_responder_buffer (c : Controller) (f : Option FrozenViews) : (c.setFrozen f).responder.buffer = c.responder.buffer := rfl

@[simp] theorem withPart_part (s : State) (c : Controller) : (s.withPart c).part = c := rfl
@[simp] theorem withPart_pending (s : State) (c : Controller) : (s.withPart c).pending = s.pending := rfl

/-! ### Reading one place of a vector after an update -/

theorem vector_get {α : Type} {k : Nat} (v : Vector α k) (i : Fin k) : v.get i = v[i.val] := rfl

theorem jacket_updJacket (c : Controller) (n m : JacketNo) (f : Jacket → Jacket) :
    (c.updJacket n f).jacket m = if m = n then f (c.jacket n) else c.jacket m := by
  simp only [Controller.updJacket, Controller.jacket, vector_get, Vector.getElem_set]
  by_cases h : n.val = m.val
  · simp [h, Fin.ext_iff]
  · simp [h, Fin.ext_iff, eq_comm]

theorem verif_updVerif (c : Controller) (n m : JacketNo) (f : Verification → Verification) :
    (c.updVerif n f).verif m = if m = n then f (c.verif n) else c.verif m := by
  simp only [Controller.updVerif, Controller.verif, vector_get, Vector.getElem_set]
  by_cases h : n.val = m.val
  · simp [h, Fin.ext_iff]
  · simp [h, Fin.ext_iff, eq_comm]

theorem noticeIndex_inj {a b : NoticeClass} (h : a.index = b.index) : a = b := by
  cases a <;> cases b <;> first | rfl | exact absurd h (by decide)

theorem notice_updNotice (c : Controller) (a b : NoticeClass) (f : Notice → Notice) :
    (c.updNotice a f).notice b = if b = a then f (c.notice a) else c.notice b := by
  simp only [Controller.updNotice, Controller.notice, vector_get, Vector.getElem_set]
  by_cases h : a.index.val = b.index.val
  · have e : a = b := noticeIndex_inj (Fin.ext h)
    subst e
    simp
  · have e : b ≠ a := fun k => h (by rw [k])
    simp [h, e]

@[simp] theorem jacket_updRecord (c : Controller) (s : Nat) (f : Record → Record) (n : JacketNo) :
    (c.updRecord s f).jacket n = c.jacket n := rfl
@[simp] theorem jacket_setQueue (c : Controller) (q : List QueueEntry) (n : JacketNo) : (c.setQueue q).jacket n = c.jacket n := rfl
@[simp] theorem jacket_setMark (c : Controller) (m : InfeedMark) (n : JacketNo) : (c.setMark m).jacket n = c.jacket n := rfl
@[simp] theorem jacket_updNotice (c : Controller) (k : NoticeClass) (f : Notice → Notice) (n : JacketNo) :
    (c.updNotice k f).jacket n = c.jacket n := rfl
@[simp] theorem jacket_updVerif (c : Controller) (m : JacketNo) (f : Verification → Verification) (n : JacketNo) :
    (c.updVerif m f).jacket n = c.jacket n := rfl
@[simp] theorem verif_updJacket (c : Controller) (m : JacketNo) (f : Jacket → Jacket) (n : JacketNo) :
    (c.updJacket m f).verif n = c.verif n := rfl
@[simp] theorem verif_updRecord (c : Controller) (s : Nat) (f : Record → Record) (n : JacketNo) :
    (c.updRecord s f).verif n = c.verif n := rfl
@[simp] theorem verif_setQueue (c : Controller) (q : List QueueEntry) (n : JacketNo) : (c.setQueue q).verif n = c.verif n := rfl
@[simp] theorem notice_updJacket (c : Controller) (m : JacketNo) (f : Jacket → Jacket) (k : NoticeClass) :
    (c.updJacket m f).notice k = c.notice k := rfl
@[simp] theorem notice_updRecord (c : Controller) (s : Nat) (f : Record → Record) (k : NoticeClass) :
    (c.updRecord s f).notice k = c.notice k := rfl
@[simp] theorem notice_setQueue (c : Controller) (q : List QueueEntry) (k : NoticeClass) : (c.setQueue q).notice k = c.notice k := rfl

/-! ### The insertion queue's head, and the notice a removed entry gives back -/

theorem urgent_found {before : List QueueEntry} (later : List QueueEntry) {e : QueueEntry} (h : e.body.urgent = true)
    (b : ∀ x ∈ before, x.body.urgent = false) :
    queueHead (before ++ e :: later) = some e ∧ queueRest (before ++ e :: later) = before ++ later := by
  have nf : before.find? (fun x => x.body.urgent) = none := by simpa using b
  constructor
  · simp [queueHead, List.find?_append, nf, h]
  · simp only [queueRest, List.any_append, List.any_cons, h, Bool.true_or, Bool.or_true, if_true]
    rw [List.eraseP_append_right _ (fun x hx => by simp [b x hx]), List.eraseP_cons, h, cond_true]

theorem oldest_without_urgent {later : List QueueEntry} {e : QueueEntry} (b : ∀ x ∈ e :: later, x.body.urgent = false) :
    queueHead (e :: later) = some e ∧ queueRest (e :: later) = later := by
  have nf : (e :: later).find? (fun x => x.body.urgent) = none := by simpa using b
  have na : (e :: later).any (fun x => x.body.urgent) = false := by simpa using b
  exact ⟨by simp [queueHead, nf], by simp [queueRest, na]⟩

theorem takenFrom_notice (cls : NoticeClass) (e : QueueEntry) {k subject cause : Nat}
    (h : e.body = .notice cls k subject cause) :
    QueueEntry.takenFrom cls e =
      some { pending := true, enable := e.clearedEnable, count := k, subject, cause, testMark := e.testMark } := by
  simp [QueueEntry.takenFrom, h]

end Sys2Proof.Machine
end

