-- ==== Sys2Proof/Laws/Tables.lean ====
section
/-! SUPPORT. What the checks of the Table Store ask: the blocks of a chain (R29), the ranges of a type record (R20, R21), and steps 1 and 2 of a
step block record (R27, R28). -/
namespace Sys2Proof.Machine

/-- The blocks a walk takes: those before the twelfth, inside the store, whose predecessors all have their chain flag set (R29). -/
theorem chainWalk_contains (store : Vector Block 96) (n p i : Nat) :
    (chainWalk store n p).1.contains i = true ↔
      p ≤ i ∧ i < p + n ∧ i ≤ 95 ∧ ∀ j, p ≤ j → j < i → ((store[j]?).getD .powerOn).chain = true := by
  induction n generalizing p with
  | zero => simp [chainWalk]; omega
  | succ n ih =>
    unfold chainWalk
    by_cases hp : p < 96
    · have hg : store[p]? = some store[p] := by simp [hp]
      have alone : [p].contains i = true ↔ i = p := by simp
      rw [hg]
      dsimp only
      by_cases hc : store[p].chain = false
      · rw [if_pos hc, alone]
        refine ⟨fun h => ⟨by omega, by omega, by omega, fun j _ _ => by omega⟩, fun ⟨a, _, _, d⟩ => ?_⟩
        by_contra e
        have := d p (Nat.le_refl _) (by omega)
        rw [hg] at this
        simp [hc] at this
      · rw [if_neg hc]
        by_cases h95 : 95 ≤ p
        · rw [if_pos h95, alone]
          exact ⟨fun h => ⟨by omega, by omega, by omega, fun j _ _ => by omega⟩, fun ⟨a, _, b, _⟩ => by omega⟩
        · rw [if_neg h95, List.contains_cons, Bool.or_eq_true, ih]
          constructor
          · rintro (h | ⟨a, b, e, d⟩)
            · have : i = p := by simpa using h
              exact ⟨by omega, by omega, by omega, fun j _ _ => by omega⟩
            · refine ⟨by omega, by omega, e, fun j h1 h2 => ?_⟩
              by_cases ej : j = p
              · subst ej
                rw [hg]
                simpa using hc
              · exact d j (by omega) h2
          · rintro ⟨a, b, e, d⟩
            by_cases ei : i = p
            · exact .inl (by simp [ei])
            · exact .inr ⟨by omega, by omega, e, fun j h1 h2 => d j (by omega) h2⟩
    · have hg : store[p]? = none := by simp; omega
      rw [hg]
      simp
      omega

/-- The chain that begins at an index holds a block (R29). -/
theorem chainAt_contains (t : Tables) (p i : Nat) :
    (t.chainAt p).1.contains i = true ↔ p ≤ i ∧ i < p + 12 ∧ i ≤ 95 ∧ ∀ j, p ≤ j → j < i → (t.blockAt j).chain = true :=
  chainWalk_contains t.blocks Config.maxChain p i

/-- Steps 1 and 2 of R28, on the record as it is carried. -/
theorem BlockRecord.fieldsOk_iff (r : BlockRecord) :
    (∃ b, r.block? = some b ∧ b.fieldsOk = true) ↔
      (r.kind ≤ 4 ∧ r.timeExp ≤ 11 ∧ (r.kind = 1 → r.target ≤ 1100 ∧ 1 ≤ r.rate ∧ r.rate ≤ 65535) ∧
        (r.kind ≠ 1 → r.duration ≤ 6000) ∧
        (r.kind = 0 ∨ r.kind = 2 ∨ r.kind = 3 → 1 ≤ r.samples ∧ r.samples ≤ 16 ∧ r.maxRecords ≤ 63 ∧ r.band ≤ 255) ∧
        (r.kind = 2 → ∀ l, r.leak = some l → l ≤ 65535)) ∧
      (r.kind ≠ 1 → r.target = 0 ∧ r.rate = 0) ∧ (r.kind = 1 → r.duration = 0) ∧
      (¬ (r.kind = 0 ∨ r.kind = 2 ∨ r.kind = 3) → r.samples = 0 ∧ r.maxRecords = 0 ∧ r.band = 0) ∧
      (r.kind ≠ 2 → r.reading = false ∧ r.leak = none) := by
  obtain ⟨kind, chain, target, rate, duration, samples, maxRecords, band, timeExp, reading, leak⟩ := r
  match kind with
  | 0 | 1 | 2 | 3 | 4 =>
    all_goals
      cases leak <;>
        simp [BlockRecord.block?, kindOfCode, Block.fieldsOk, Block.usedInRange, Block.unusedClear, BlockKind.settles] <;> tauto
  | kind + 5 => simp [BlockRecord.block?, kindOfCode]

end Sys2Proof.Machine
end

