-- ==== Sys2Proof/Tests/Slice0.lean ====
section
/-! SUPPORT. Tests of this sitting: an ill-formed command for each check of WellFormed, worked figures of the spec, and for every statement with
hypotheses a concrete state that meets them, with what the command makes of it. -/
namespace Sys2Proof.Tests
open Sys2Proof.Machine

set_option Elab.async false

/-! ### Helpers -/

/-- A header from a node to the part, whose address is 9. -/
def hdr (source : Byte) : Header := { destination := 9, source, sequence := 7, trailer := 0 }

/-- What a command leaves of the part. -/
def after (i : Instr) (c : Controller) : Controller :=
  match exec i { part := c, pending := [] } with
  | .next t => t.part
  | .fault _ => c
  | .refused _ => c

/-- An ordinary type: Ptest 10,000, window 1 %, overpressure limit 11,000, ratio limit 5 %, REE 9,000. -/
def ordinary : TypeEntry :=
  { valid := true, size := .small, ptest := 10000, window := 10, overpressure := 1100, ratioLimit := 50, ree := some 9000,
    massLoss := 50, massGain := 20, interval := 10, programStart := 0, suffix := some 0x4C, reference := none }

/-- A reference type: expected 8,000 within 40. -/
def reference : TypeEntry := { ordinary with reference := some { expected := 8000, tolerance := 40 } }

/-- The tables: two types, a window, four defect codes, a program ZERO, RAMP, reading HOLD, VENT, and the stations at nodes 1 to 7 and 10. -/
def tables : Tables :=
  { types := ((Vector.replicate 128 TypeEntry.invalid).set 0 ordinary).set 1 reference
    windows := (Vector.replicate 16 Window.invalid).set 0
      { valid := true, base := 256, k := 8, owner := 3, returnCondemned := true }
    defects := (((Vector.replicate 256 Action.manual).set 1 .accept).set 2 .rework).set 3 .condemn
    blocks := ((((Vector.replicate 96 Block.powerOn).set 0
        { Block.powerOn with kind := .zero, chain := true, samples := 2, band := 5, timeExp := 6 }).set 1
        { Block.powerOn with kind := .ramp, chain := true, target := 1000, rate := 50, timeExp := 7 }).set 2
        { Block.powerOn with kind := .hold, chain := true, duration := 3, samples := 2, band := 5, timeExp := 6,
                             reading := true, leak := some 20 }).set 3
        { Block.powerOn with kind := .vent, samples := 2, band := 5, timeExp := 6 }
    stations := ((((((((Vector.replicate 64 Role.none).set 1 .master).set 2 .entry).set 3 .scale).set 4 .visual).set 5
      .router).set 6 .stamp).set 7 .scrap).set 10 (.jacket 0 .small) }

/-- The part in service: stations, two types, a window, a program, a date, the ring UP and the line RUNNING, with jacket 0 verified. -/
def base : Controller :=
  let c := Controller.powerOn 9
  { c with
    ring := { c.ring with status := .up, locked := true }
    tables := tables
    mark := { value := .released, reasons := { notRunning := false, registerFull := false, queueFull := false }, owed := none }
    jackets := c.jackets.set 0 { Jacket.powerOn with state := .idle }
    verification := c.verification.set 0 { verified := true, date := some { year := 2031, month := 4, day := 17 }, count := 0 }
    line := { c.line with state := .running, date := some { year := 2031, month := 4, day := 17 },
                          items := { Items.powerOn with plantCode := [0x4B, 0x37, 0x50, 0x32] } } }

/-- The tag of cylinder 300, last tested in April 2021. -/
def tag : EntryTag := { serial := 300, status := 0, typeCode := 0, tare := 1000, lastYear := 21, lastMonth := 4 }

/-- The payload of that tag with this status and type code. -/
def tagBytes (status code : Byte) : List Byte := [0, 0, 1, 44, status, code, 3, 232, 21, 4]

/-- The record of cylinder 300 in a state. -/
def cylinder (state : RecordState) : Record :=
  { admitted 0 tag ordinary (some { valid := true, base := 256, k := 8, owner := 3, returnCondemned := true }) with state }

/-- The part with these records. -/
def withRecords (records : List Record) : Controller := { base with records }

/-- Jacket 0 with this context, serving the record of slot 0. -/
def serving (state : JacketState) : Jacket := { Jacket.powerOn with state, slot := some 0, loaded := some 300 }

/-- The part with the record of cylinder 300 and this context of jacket 0. -/
def withJacket (record : RecordState) (j : Jacket) : Controller :=
  (withRecords [cylinder record]).updJacket 0 fun _ => j

/-- Another line state. -/
def inLine (state : LineState) (c : Controller) : Controller := { c with line := { c.line with state } }

/-- The part with the line STOPPED and the infeed held. -/
def stoppedBase : Controller := { inLine .stopped base with mark := .powerOn }

/-- The reason of a refusal. -/
def refusal {α : Type} : Except Reason α → Option Reason
  | .error r => some r
  | .ok _ => none

/-- The payload of a sample: pressure, level 40, temperature 200. -/
def sample (pressure : Nat) : List Byte := field2 pressure ++ field2 40 ++ field2 200

/-- The bytes of serial 300, and of 301. -/
def s300 : List Byte := [0, 0, 1, 44]
def s301 : List Byte := [0, 0, 1, 45]

/-- Jacket 0 awaits cylinder 300. -/
def awaiting300 : Jacket := { Jacket.powerOn with state := .awaiting, slot := some 0, awaited := some 300 }

/-- The bodies that wait in the queue. -/
def queued (c : Controller) : List Body := c.ring.queue.map QueueEntry.body

/-- Whether two states of the part are alike but for their tables. -/
def alike (c d : Controller) : Bool :=
  c.ring == d.ring && c.records == d.records && c.mark == d.mark && c.jackets == d.jackets &&
    c.verification == d.verification && c.line == d.line && c.notices == d.notices && c.responder == d.responder

/-- The state of cylinder 300's record. -/
def stateOf (c : Controller) : Option RecordState := (c.recordOf 300).map Record.state

theorem sound_of {c : Controller}
    (h : c.records.length ≤ 64 ∧ (c.records.map Record.serial).Nodup ∧ (c.records.map Record.slot).Nodup ∧
      ∀ r ∈ c.records, r.slot < 64) : c.RegisterSound := h

/-! ### Well-formedness -/

theorem test_wellFormed_accepts : (Instr.entryTag (hdr 2) (tagBytes 0 0)).wellFormed = true := by decide
theorem test_wellFormed_destination :
    (Instr.start { hdr 1 with destination := 64 } []).wellFormed = false := by decide
theorem test_wellFormed_source : (Instr.stop (hdr 64) []).wellFormed = false := by decide
theorem test_wellFormed_payload : (Instr.massReading (hdr 3) (List.replicate 201 0)).wellFormed = false := by decide +kernel
theorem test_wellFormed_one_fixed : (Instr.tableWrite (hdr 1) (List.replicate 200 0)).wellFormed = false := by decide +kernel
theorem test_wellFormed_two_fixed : (Instr.setDate (hdr 1) (List.replicate 199 0)).wellFormed = false := by decide +kernel
theorem test_wellFormed_return_destination : (Instr.returnMatching 64 16 0 [] 0).wellFormed = false := by decide
theorem test_wellFormed_return_payload :
    (Instr.returnMatching 1 16 0 (List.replicate 201 0) 0).wellFormed = false := by decide +kernel
theorem test_wellFormed_known_kind : (Instr.manageUnsupported (hdr 1) [6]).wellFormed = false := by decide
theorem test_wellFormed_frozen_mode : (Instr.jacketView (hdr 1) [2]).wellFormed = false := by decide
theorem test_wellFormed_known_code : (Instr.commandUnsupported (hdr 1) [12]).wellFormed = false := by decide

/-! ### Worked figures of the spec -/

/-- The CRC's check value for the characters 1 to 9. -/
theorem test_crc : crc16 [0x31, 0x32, 0x33, 0x34, 0x35, 0x36, 0x37, 0x38, 0x39] = 0x29B1 := by decide +kernel

/-- A frame's bytes on the wire pass the checks as that frame, and a changed byte fails them. -/
theorem test_frame_read_back :
    checkFrame ({ header := hdr 2, kind := 1, payload := tagBytes 0 0 } : Frame).wire =
      some { header := hdr 2, kind := 1, payload := tagBytes 0 0 } ∧
    checkFrame [9, 2, 1, 7, 0, 0, 0, 0] = none := by decide +kernel

/-- The worked case of chapter 7: T 8,812, R 54, elastic 8,335; 116 with E_perm 1,020; the limits of the thermal check and of the window. -/
def workedType : TypeEntry := { ordinary with ptest := 25000, window := 20, ratioLimit := 100 }

/-- The readings of the worked case. -/
def workedJacket : Jacket :=
  { Jacket.powerOn with zero := some ⟨1205, 182⟩, hold := some ⟨8674, 24609⟩, vent := some ⟨477, 185⟩ }

theorem test_worked_pass :
    formResult workedJacket workedType 10 =
      (.pass, { z := 1205, t := 8812, ePerm := 477, ratio := 54, elastic := 8335, pRead := 24609 }) := by decide +kernel
theorem test_worked_fail :
    formResult { workedJacket with vent := some ⟨1020, 185⟩ } workedType 10 =
      (.fail .permanent, { z := 1205, t := 8812, ePerm := 1020, ratio := 116, elastic := 7792, pRead := 24609 }) := by decide +kernel
theorem test_worked_limits :
    (formResult { workedJacket with vent := some ⟨477, 193⟩ } workedType 10).1 = .invalid .thermal ∧
    (formResult { workedJacket with vent := some ⟨477, 192⟩ } workedType 10).1 = .pass ∧
    (formResult { workedJacket with hold := some ⟨8674, 24499⟩ } workedType 10).1 = .invalid .pressureWindow ∧
    (formResult { workedJacket with hold := some ⟨0, 24609⟩ } workedType 10).1 = .invalid .noExpansion ∧
    (formResult { workedJacket with earlyEnd := some .leak } workedType 10).1 = .invalid .leak ∧
    normalised { workedType with ptest := 60000, window := 50 } 63000 57000 = 65535 ∧ expansionRatio 450 300 = 1000 ∧
    elasticExpansion 450 300 = 0 := by decide +kernel
theorem test_mass_loss : massPermille (6100 - 5820) 6100 = 46 ∧
judgeMass { ordinary with massLoss := 40 } 6100 5820 = .loss := by decide +kernel
theorem test_marks :
    passMarks [0x4B, 0x37, 0x50, 0x32] { year := 2031, month := 4, day := 30 } (some 0x4C) =
      [0x4B, 0x37, 0x50, 0x32, 0x20, 0x30, 0x34, 0x2F, 0x33, 0x31, 0x4C] ∧
    passMarks [0x4B, 0x37, 0x50, 0x32] { year := 2005, month := 1, day := 2 } none =
      [0x4B, 0x37, 0x50, 0x32, 0x20, 0x30, 0x31, 0x2F, 0x30, 0x35] := by decide

/-- The base state keeps every law that the steps keep, so the statements about runs are not empty on it. -/
theorem test_base_sound :
    base.mapComplete = true ∧ base.tables.chainOk 0 = true ∧ base.mark.reasons = base.infeedReasons ∧
    base.mark.value = base.infeedReasons.wanted ∧ base.offerable .lineHold = false ∧
    base.screen tag = .admission ordinary (base.tables.windowOf 300) := by
  decide +kernel

/-! ### Power-on, pins and time -/

theorem test_idle :
    let c := withJacket .testing { serving (.running .zero) with sampleAge := 65535 }
    c.ring.status = .up ∧ (c.jacket 0).state.pressing = true ∧ (c.jacket 1).state.pressing = false ∧
    c.tick.ring.clock = 1 ∧ (c.tick.jacket 0).elapsed = 1 ∧ (c.tick.jacket 0).sampleAge = 65535 ∧
    c.tick.jacket 1 = c.jacket 1 ∧ (({ c with ring := { c.ring with status := .down } }).tick.jacket 0).elapsed = 1 := by
  decide +kernel

theorem test_powerOn :
    (after (.powerOn 9 true) base).line.state = .holding ∧ ((after (.powerOn 9 true) base).notice .lineHold).pending = true ∧
    (after (.powerOn 63 true) base).line = .powerOn ∧ alike (after (.powerOn 0 false) base) (.powerOn 0) := by decide +kernel

theorem test_hold :
    let c := (withJacket .testing (serving (.running .ramp))).enqueue (.infeed .release) .infeed
    let d := after .holdAsserted c
    c.bypass = false ∧ c.line.state ≠ .holding ∧ (c.jacket 0).state = .running .ramp ∧
    d.line.state = .holding ∧ d.line.holdFrom = .running ∧ (d.jacket 0).state = .recovering .hold ∧
    d.mark.owed = none ∧ queued d = [.command 0 .vent, .notice .lineHold 1 0 0] := by decide +kernel

theorem test_pins :
    let dark : Controller := .powerOn 63
    let held := inLine .holding base
    let open' := { base with ring := { base.ring with locked := false } }
    dark.bypass = true ∧ alike (after .holdAsserted dark) dark ∧ alike (after .holdReleased dark) dark ∧
    held.bypass = false ∧ held.line.state = .holding ∧ (after .holdAsserted held).line.causeLineHold = true ∧
    alike (after .holdReleased (after .holdAsserted held)) held ∧
    base.ring.locked = true ∧ (after .rxLockLost base).ring.locked = false ∧ alike (after .rxLockRegained base) base ∧
    open'.ring.locked = false ∧ (after .rxLockRegained open').ring.locked = true ∧ alike (after .rxLockLost open') open' := by
  decide +kernel

theorem test_ring_changes :
    let lost (n : Nat) : Controller := { base with ring := { base.ring with locked := false, lockCount := n } }
    let found (n : Nat) : Controller := { base with ring := { base.ring with status := .down, lockCount := n } }
    (lost 10).bypass = false ∧ (lost 10).ring.status = .up ∧ (after .ringDown (lost 10)).line.causeRing = true ∧
    (after .ringDown (lost 10)).ring.status = .down ∧ alike (after .ringDown (lost 9)) (lost 9) ∧
    (found 100).ring.status = .down ∧ (found 100).ring.locked = true ∧ (after .ringUp (found 100)).ring.status = .up ∧
    queued (after .ringUp (found 100)) = [.notice .ringRestored 1 0 0] ∧ alike (after .ringUp (found 99)) (found 99) := by
  decide +kernel

/-! ### Reception, returns, the transmitter -/

theorem test_frames_not_acted_on :
    let f : Frame := { header := hdr 20, kind := 1, payload := [] }
    let full := { base with ring := { base.ring with forward := [[], [], [], []] } }
    let busy := base.setBuffer .taken
    checkFrame [] = none ∧ alike (after (.frameDiscarded []) base) base ∧
    checkFrame f.wire = some f ∧ f.header.source.toNat ≠ full.ring.nodeAddress.toNat ∧ 4 ≤ full.ring.forward.length ∧
    alike (after (.frameDiscarded f.wire) full) full ∧
    base.roleAt f.header.source.toNat = .none ∧ (after (.forwardedFrame f.wire) base).ring.forward = [f.wire] ∧
    (after (.forwardedFrame [1, 2]) (.powerOn 0)).ring.forward = [[1, 2]] ∧
    busy.Hears (hdr 1) 2 ∧ busy.responder.buffer ≠ .empty ∧
    alike (after (.manageNotTaken (hdr 1) [3, 1]) busy) (busy.placeForward (manageFrame (hdr 1) [3, 1]).wire) := by decide +kernel

/-- An outstanding entry with a number and an owner, of a gate order or of the body its owner has. -/
def out (sequence : Nat) (owner : Owner) (body : Body := .gate 300 .fill) : OutEntry :=
  { sequence, start := 0, body, destination := 5, owner, stands := true }

/-- The part with these outstanding entries. -/
def withOut (c : Controller) (l : List OutEntry) : Controller := c.setOutstanding l

theorem test_outstanding :
    let c := withOut base [out 4 (.recordless 7), out 5 .reply, out 6 .reply]
    let late := { c with ring := { c.ring with clock := 25 } }
    c.bypass = false ∧ (c.ring.outstanding.map OutEntry.sequence).findIdx? (· == 5) = some 1 ∧
    (after (.returnMatching 5 17 5 [] 1) c).ring.outstanding.map OutEntry.sequence = [6] ∧
    (∀ e ∈ c.ring.outstanding, e.sequence ≠ 9) ∧ alike (after (.returnMatching 5 17 9 [] 1) c) c ∧
    queued (after (.returnMatching 5 17 5 [] 1) c) = [.notice .undelivered 1 7 17] ∧
    (after .returnTimeout late).ring.outstanding = [] ∧ alike (after .returnTimeout c) c := by decide +kernel

theorem test_delivered :
    let gone (o : Owner) (b : Body) : Prop := alike (after (.returnMatching 5 17 4 [] 1) (withOut base [out 4 o b])) base
    gone (.jacket 0) (.command 0 .vent) ∧ gone .infeed (.infeed .hold) ∧ gone (.notice .lineHold) (.notice .lineHold 1 0 0) ∧
    gone .reply (.gate 0 .fill) ∧ gone (.recordless 3) (.gate 3 .fill) ∧
    gone (.record 0) (.testResult 300 ⟨0, 1, .pass, ⟨0, 0, 0, 0, 0, 0⟩⟩) ∧
    alike (after (.returnMatching 63 17 4 [] 0) (withOut base [out 4 .reply])) base := by decide +kernel

theorem test_command_lost :
    let c (s : JacketState) := withOut (withJacket .testing (serving s)) [out 4 (.jacket 0) (.command 0 .vent)]
    let lost (s : JacketState) := after (.returnMatching 10 18 4 [] 0) (c s)
    (1 : Byte).getLsbD 0 = true ∧ (0 : Byte).getLsbD 0 = false ∧ (10 : Byte).toNat ≠ 63 ∧
    ((c (.running .hold)).jacket 0).state.pressing = true ∧
    ((lost (.running .hold)).jacket 0).state = .fault .station ∧ ((lost .heldVented).jacket 0).state = .fault .station ∧
    ((lost .unloading).jacket 0).slot = none ∧ stateOf (lost .unloading) = some .manualHeld ∧
    queued (lost .heldVented) = [.notice .manualDivert 1 300 2, .notice .jacketFault 1 0 1] ∧
    alike (lost .idle) (withJacket .testing (serving .idle)) ∧
    alike (lost (.fault .silent)) (withJacket .testing (serving (.fault .silent))) := by
  decide +kernel

theorem test_other_outcomes :
    let back (tr : Byte) (o : Owner) (b : Body) := after (.returnMatching 5 17 4 [] tr) (withOut stoppedBase [out 4 o b])
    let tested : Body := .testResult 300 ⟨0, 1, .pass, ⟨0, 0, 0, 0, 0, 0⟩⟩
    let c := withOut (withRecords [cylinder .leaving]) [out 4 (.record 0) tested]
    alike (back 0 (.notice .lineHold) (.notice .lineHold 1 0 0)) stoppedBase ∧ alike (back 0 .lost (.gate 3 .fill)) stoppedBase ∧
    queued (back 0 (.recordless 7) (.gate 7 .fill)) = [.notice .undelivered 1 7 17] ∧
    queued (after (.returnMatching 5 17 4 [] 0) c) = [.notice .undelivered 1 300 32] ∧
    stoppedBase.mark.reasons = stoppedBase.infeedReasons ∧ stoppedBase.mark.value = .held ∧
    stoppedBase.infeedReasons.wanted = .held ∧
    queued (back 0 .infeed (.infeed .hold)) = [.notice .undelivered 1 0 16, .infeed .hold] := by decide +kernel

theorem test_order_outcomes :
    let c (r : Record) (b : Body) := withOut (withRecords [r]) [out 4 (.record 0) b]
    let back (tr : Byte) (r : Record) (b : Body) := after (.returnMatching 5 17 4 [] tr) (c r b)
    let routed : Record := { cylinder .routed with jacket := some 0 }
    let lost := after (.returnMatching 5 17 4 [] 0) ((c routed (.gate 300 (.jacket 0))).updJacket 0 fun _ => awaiting300)
    (c routed (.gate 300 (.jacket 0))).RegisterSound ∧ (c routed (.gate 300 (.jacket 0))).recordAt 0 = some routed ∧
    routed.awaitsOutcome (.gate 300 (.jacket 0)) = true ∧ routed.awaitsOutcome (.gate 300 .fill) = false ∧
    awaiting300.awaited = some 300 ∧ (withRecords [routed]).waitingQueue = [] ∧ stateOf lost = some .manualHeld ∧
    (lost.jacket 0).state = .idle ∧ (lost.jacket 0).awaited = none ∧ (lost.jacket 0).slot = none ∧
    queued lost = [.notice .undelivered 1 300 17] ∧
    alike (back 1 routed (.gate 300 (.jacket 0))) (withRecords [routed]) ∧
    alike (back 0 (cylinder .waiting) (.gate 300 (.jacket 0))) (withRecords [cylinder .waiting]) ∧
    queued (back 0 (cylinder .stamping) (.stampOrder 300 [])) = [.notice .undelivered 1 300 19] ∧
    queued (back 0 (cylinder .scrapping) (.scrapOrder 300)) = [.notice .undelivered 1 300 20] ∧
    (back 1 (cylinder .leaving) (.gate 300 .fill)).records = [] ∧
    (back 1 { cylinder .leaving with resultOwed := true } (.gate 300 .fill)).records =
      [{ cylinder .leaving with resultOwed := true, releasePending := true }] := by
  refine ⟨sound_of (by decide), ?_⟩
  decide +kernel

/-- The jacket that the lost order frees takes the next waiting record, and awaits that one. -/
theorem test_freed_jacket_takes_another :
    let routed : Record := { cylinder .routed with jacket := some 0 }
    let next : Record := { cylinder .waiting with slot := 1, serial := 301 }
    let c := withOut ((withRecords [routed, next]).updJacket 0 fun _ => awaiting300) [out 4 (.record 0) (.gate 300 (.jacket 0))]
    let lost := after (.returnMatching 5 17 4 [] 0) c
    let held := after (.returnMatching 5 17 4 [] 0) (inLine .holding c)
    (lost.jacket 0).state = .awaiting ∧ (lost.jacket 0).awaited = some 301 ∧
    (held.jacket 0).state = .idle ∧ (held.jacket 0).awaited = none := by decide +kernel

/-- The release of the last record of a STOPPING line makes it STOPPED: by a delivered order, a scrap report, a RELEASE, and the placement of the
TEST RESULT that a pending release waits for. Another record keeps it STOPPING. -/
theorem test_last_release_drains :
    let c (l : List Record) : Controller := { inLine .stopping (withRecords l) with mark := .powerOn }
    let held : Record := cylinder .manualHeld
    let waits : Record :=
      { held with releasePending := true, resultOwed := true, lastResult := some ⟨0, 1, .pass, ⟨0, 0, 0, 0, 0, 0⟩⟩ }
    let gone (l : List Record) := after (.returnMatching 5 17 4 [] 1) (withOut (c l) [out 4 (.record 0)])
    let stops (d : Controller) : Prop := d.line.state = .stopped ∧ Body.notice .lineStopped 1 0 0 ∈ queued d ∧ d.records = []
    stops (gone [cylinder .leaving]) ∧ (gone [cylinder .leaving, { held with slot := 1, serial := 301 }]).line.state = .stopping ∧
    stops (after (.scrapReport (hdr 7) (s300 ++ [0])) (c [cylinder .scrapping])) ∧
    stops (after (.release (hdr 1) s300) (c [held])) ∧ (c [waits]).mark.reasons = (c [waits]).infeedReasons ∧
    (c [waits]).mark.value = (c [waits]).infeedReasons.wanted ∧ (∀ n : JacketNo, ((c [waits]).jacket n).owedCommand = none) ∧
    stops (c [waits]).arbitrate ∧ (queued (c [waits]).arbitrate).head? = some (.testResult 300 ⟨0, 1, .pass, ⟨0, 0, 0, 0, 0, 0⟩⟩) := by
  decide +kernel

/-- An older entry and an expired one are removed as a frame that comes back untaken is. -/
theorem test_older_is_undelivered :
    let c := { withOut base [out 4 (.recordless 7), out 5 (.recordless 8)] with line := { base.line with items := { base.line.items with returnTime := 5 } } }
    let late := { c with ring := { c.ring with clock := 5 } }
    let untaken (c : Controller) := after (.returnMatching 5 17 4 [] 0) c
    let back (c : Controller) := after (.returnMatching 5 17 5 [] 1) c
    (4 : Byte).toNat = (out 4 (.recordless 7)).sequence ∧ (0 : Byte).getLsbD 0 = false ∧ (5 : Byte).toNat ≠ 63 ∧
    queued (untaken c) = [.notice .undelivered 1 7 17] ∧ alike (back c) (back (untaken c)) ∧
    late.line.items.returnTime ≤ late.ring.clock - 0 ∧ alike (after .returnTimeout late) (after .returnTimeout (untaken late)) ∧
    queued (after .returnTimeout late) = [.notice .undelivered 1 7 17, .notice .undelivered 1 8 17] := by decide +kernel

/-- An undelivered INFEED frame is made again while the mark holds its value, owed without room, and not at all once the mark has changed. -/
theorem test_infeed_lost :
    let back (c : Controller) (o : InfeedOrder) := after (.returnMatching 2 16 4 [] 0) (withOut c [out 4 .infeed (.infeed o)])
    let urgents := List.replicate 16 { destination := 0, body := .command 0 .vent, owner := .lost, clearedEnable := false, testMark := false }
    queued (back base .release) = [.notice .undelivered 1 0 16, .infeed .release] ∧
    queued (back base .hold) = [.notice .undelivered 1 0 16] ∧ queued (back stoppedBase .release) = [.notice .undelivered 1 0 16] ∧
    (stoppedBase.setQueue urgents).hasRoom (.infeed .hold) = false ∧
    (back (stoppedBase.setQueue urgents) .hold).mark.owed = some { order := .hold, origin := .repeated } := by decide +kernel

theorem test_own_frame_starts :
    let c := base.enqueue (.infeed .hold) .infeed
    let d := { c with ring := { c.ring with forward := [[1]], streak := 4, sequence := 255 } }
    c.ring.transmitter = .free ∧ c.ring.status = .up ∧ c.bypass = false ∧ c.ring.outstanding.length < 16 ∧
    queued c = [.infeed .hold] ∧ c.ring.forward = [] ∧ (after .transmitterStart c).ring.queue = [] ∧
    (after .transmitterStart c).ring.transmitter = .own [2, 9, 16, 0, 1, 0, 5, 186, 0] ∧
    (after .transmitterStart c).ring.outstanding = [out 0 .infeed (.infeed .hold)].map (fun e => { e with destination := 2 }) ∧
    4 ≤ d.ring.streak ∧ (after .transmitterStart d).ring.sequence = 0 ∧ (after .transmitterStart d).ring.streak = 0 := by
  decide +kernel

theorem test_forwarded_frame_starts :
    let idle := { base with ring := { base.ring with forward := [[1], [2]], streak := 2 } }
    let both := idle.enqueue (.infeed .hold) .infeed
    let sent := after .transmitterStart both
    let own := { base with ring := { base.ring with transmitter := .own [1] } }
    let three := ((base.enqueue (.scrapOrder 7) (.record 0)).enqueue (.command 0 .vent) (.jacket 0)).enqueue (.infeed .hold) .infeed
    let two := (base.enqueue (.scrapOrder 7) (.record 0)).enqueue (.scrapOrder 8) (.record 1)
    queued (after .transmitterStart three) = [.scrapOrder 7, .infeed .hold] ∧ queued (after .transmitterStart two) = [.scrapOrder 8] ∧
    idle.ring.transmitter = .free ∧ idle.ring.forward ≠ [] ∧ idle.ownCandidate = none ∧
    (after .transmitterStart idle).ring.streak = 0 ∧ both.ring.queue ≠ [] ∧ both.ring.streak < 4 ∧ sent.ring.streak = 3 ∧
    sent.ring.transmitter = .forwarding ∧ alike (after .transmitterStart sent) sent ∧
    (after .transmissionComplete sent).ring.forward = [[2]] ∧ own.ring.transmitter = .own [1] ∧
    (after .transmissionComplete own).ring.transmitter = .free ∧ base.ownCandidate = none ∧ base.ring.forward = [] ∧
    alike (after .transmitterStart base) base ∧ alike (after .transmissionComplete base) base := by decide +kernel

/-! ### Entry tags and dispositions -/

theorem test_screening :
    let far := { tag with serial := 1000 }
    let young := { tag with lastYear := 21, lastMonth := 5 }
    base.screen { tag with status := 1 } = .gate .manual ∧ base.screen { tag with typeCode := 128 } = .gate .manual ∧
    base.tables.types[2]? = some .invalid ∧ base.screen { tag with typeCode := 2 } = .gate .manual ∧
    base.tables.types[tag.typeCode]? = some ordinary ∧ base.line.date = some { year := 2031, month := 4, day := 17 } ∧
    (withRecords [cylinder .waiting]).screen tag = .duplicate ∧ base.screen { tag with typeCode := 1 } = .admission reference none ∧
    base.tables.windowOf far.serial = none ∧ base.screen far = .gate .returnLane ∧
    (base.tables.windowOf tag.serial).isSome = true ∧ base.screen { tag with lastMonth := 13 } = .gate .manual ∧
    young.dateUsable { year := 2031, month := 4, day := 17 } = true ∧ base.screen young = .gate .fill ∧
    tag.due { year := 2031, month := 4, day := 17 } 0 10 = true ∧ base.screen tag = .admission ordinary (base.tables.windowOf 300) := by
  decide +kernel

theorem test_entryTag :
    base.Hears (hdr 2) 10 ∧ base.roleAt 2 = .entry ∧ readEntryTag (tagBytes 0 0) = some tag ∧ base.line.state = .running ∧
    base.records.length < 64 ∧ normalRoom base.ring.queue = true ∧
    (after (.entryTag (hdr 2) (tagBytes 0 0)) base).records = [cylinder .admitted] ∧
    readEntryTag (tagBytes 1 0) = some { tag with status := 1 } ∧
    (after (.entryTag (hdr 2) (tagBytes 1 0)) base).ring.queue =
      [{ destination := 5, body := .gate 300 .manual, owner := .recordless 300, clearedEnable := false, testMark := false }] ∧
    queued (after (.entryTag (hdr 2) (tagBytes 0 0)) (withRecords [cylinder .waiting])) =
      [.gate 300 .manual, .notice .duplicateSerial 1 300 0] := by decide +kernel

theorem test_entryTag_not_acted_on :
    let stopped := inLine .stopped base
    let full := withRecords (List.replicate 64 (cylinder .waiting))
    let crowded := base.setQueue (List.replicate 12 { destination := 0, body := .scrapOrder 0, owner := .lost, clearedEnable := false, testMark := false })
    stopped.Hears (hdr 2) 10 ∧ stopped.roleAt 2 = .entry ∧ stopped.line.state ≠ .running ∧
    (after (.entryTag (hdr 2) (tagBytes 0 0)) stopped).records = [] ∧ 64 ≤ full.records.length ∧
    (after (.entryTag (hdr 2) (tagBytes 0 0)) full).records.length = 64 ∧ normalRoom crowded.ring.queue = false ∧
    (after (.entryTag (hdr 2) (tagBytes 0 0)) crowded).records = [] ∧
    (after (.entryTag (hdr 2) (tagBytes 0 0)) crowded).mark.reasons.queueFull = true := by decide +kernel

theorem test_massReading :
    let c := withRecords [cylinder .admitted]
    let none' := withRecords [{ cylinder .admitted with tare := 0 }]
    let d (m1 m2 : Byte) := after (.massReading (hdr 3) (s300 ++ [m1, m2])) c
    c.RegisterSound ∧ none'.RegisterSound ∧ c.Hears (hdr 3) 6 ∧ c.roleAt 3 = .scale ∧
    readMass (s300 ++ [3, 182]) = some (300, 950) ∧ c.recordOf 300 = some (cylinder .admitted) ∧
    stateOf (d 3 182) = some .weighed ∧ stateOf (d 3 181) = some .stamping ∧
    queued (d 3 181) = [.gate 300 .stamp, .stampOrder 300 [0x4B, 0x37, 0x50, 0x32, 0x20, 0x58, 0x58]] ∧
    stateOf (d 3 252) = some .weighed ∧ queued (d 3 253) = [.gate 300 .manual] ∧
    stateOf (after (.massReading (hdr 3) (s300 ++ [3, 232])) none') = some .leaving := by
  refine ⟨sound_of (by decide), sound_of (by decide), ?_⟩
  decide +kernel

theorem test_findings :
    let c := withRecords [cylinder .weighed]
    let d (codes : List Byte) := after (.visualFindings (hdr 4) (s300 ++ [BitVec.ofNat 8 codes.length] ++ codes)) c
    let busy := c.updJacket 0 fun _ => Jacket.powerOn
    c.RegisterSound ∧ c.Hears (hdr 4) 7 ∧ c.roleAt 4 = .visual ∧ readFindings (s300 ++ [2, 1, 3]) = some (300, [1, 3]) ∧
    c.recordOf 300 = some (cylinder .weighed) ∧ queued (d [1, 2, 3, 4]) = [.gate 300 .manual] ∧
    stateOf (d [1, 3]) = some .stamping ∧ queued (d [1, 2]) = [.gate 300 .rework] ∧ stateOf (d []) = some .routed ∧
    (∀ n : JacketNo, (busy.jacket n).state ≠ .idle) ∧
    stateOf (after (.visualFindings (hdr 4) (s300 ++ [0])) busy) = some .waiting := by
  refine ⟨sound_of (by decide), ?_⟩
  decide +kernel

theorem test_reference_passes :
    let piece (s : RecordState) : Record := { cylinder s with spec := reference, tare := 0 }
    let weigh := withRecords [piece .admitted]
    let look := (withRecords [piece .weighed]).updJacket 0 fun _ => Jacket.powerOn
    weigh.RegisterSound ∧ look.RegisterSound ∧ weigh.recordOf 300 = some (piece .admitted) ∧
    stateOf (after (.massReading (hdr 3) (s300 ++ [9, 9])) weigh) = some .weighed ∧
    stateOf (after (.visualFindings (hdr 4) (s300 ++ [1, 3])) look) = some .waiting := by
  refine ⟨sound_of (by decide), sound_of (by decide), ?_⟩
  decide +kernel

theorem test_reports_not_taken :
    let c := withRecords [cylinder .waiting]
    let stray (i : Instr) (serial code : Nat) : Prop := queued (after i c) = [.notice .strayReport 1 serial code]
    alike (after (.massReading (hdr 20) [1]) c) (c.placeForward ({ header := hdr 20, kind := 2, payload := [1] } : Frame).wire) ∧
    stray (.entryTag (hdr 2) [0, 0, 1]) 0 32 ∧ stray (.massReading (hdr 3) s300) 300 48 ∧
    stray (.visualFindings (hdr 4) (s300 ++ [2, 0])) 300 64 ∧ stray (.stampReport (hdr 6) s300) 300 112 ∧
    stray (.scrapReport (hdr 7) []) 0 128 ∧ stray (.jacketArrival (hdr 10) []) 0 96 ∧ stray (.jacketClear (hdr 10) [1]) 0 96 ∧
    stray (.jacketSample (hdr 10) s300) 0 96 ∧
    stray (.visualFindings (hdr 4) (s300 ++ [9, 0, 0, 0, 0, 0, 0, 0, 0, 0])) 300 64 ∧
    stray (.stampReport (hdr 6) (s300 ++ [2, 0])) 300 112 ∧ stray (.stampReport (hdr 6) (s300 ++ [1, 13])) 300 112 ∧
    stray (.scrapReport (hdr 7) (s300 ++ [2])) 300 128 ∧ stray (.massReading (hdr 3) (s301 ++ [0, 0])) 301 49 ∧
    stray (.massReading (hdr 3) (s300 ++ [0, 0])) 300 50 ∧ stray (.stampReport (hdr 6) (s300 ++ [1, 12])) 300 114 ∧
    stray (.scrapReport (hdr 7) (s300 ++ [1])) 300 130 := by decide +kernel

/-! ### Assignment, arrivals, samples -/

theorem test_recordPass :
    let r := cylinder .waiting
    let c := withRecords [r]
    let none' := c.updVerif 0 fun v => { v with count := 3 }
    c.RegisterSound ∧ c.recordAt r.slot = some r ∧ r.releasePending = false ∧ c.line.state = .running ∧ c.eligible 0 r = true ∧
    c.jacketFor r = some 0 ∧ c.tables.chainOk r.spec.programStart = true ∧ (∀ n : JacketNo, none'.eligible n r = false) ∧
    alike (none'.recordPass 0) none' ∧ stateOf (c.recordPass 0) = some .routed ∧ queued (c.recordPass 0) = [.gate 300 (.jacket 0)] ∧
    ((c.recordPass 0).jacket 0).state = .awaiting := by
  refine ⟨sound_of (by decide), ?_⟩
  decide +kernel

/-- A chain that leads nowhere diverts the record, and the jacket takes the next one. -/
theorem test_program_fault :
    let astray : Record := { cylinder .waiting with spec := { ordinary with programStart := 1 } }
    let c := withRecords [astray, { cylinder .waiting with slot := 1, serial := 301 }]
    let d := c.recordPass 0
    c.RegisterSound ∧ d.line = c.line ∧ d.tables = c.tables ∧ d.verification = c.verification ∧ c.tables.chainOk 1 = false ∧ c.tables.chainOk 0 = true ∧ c.jacketFor astray = some 0 ∧ stateOf d = some .leaving ∧
    (d.recordAt 0).bind Record.verdict = some (.manual .program) ∧ (d.jacket 0).awaited = some 301 ∧
    queued d = [.gate 300 .manual, .notice .programFault 1 300 1, .gate 301 (.jacket 0)] := by
  refine ⟨sound_of (by decide), rfl, rfl, ?_⟩
  decide +kernel

/-- A reference record goes to an unverified jacket before a verified one; a jacket pass takes the oldest record it may take. -/
theorem test_reference_preference :
    let piece : Record := { cylinder .waiting with spec := reference }
    let two := (withRecords [{ cylinder .waiting with slot := 1, serial := 301 }, piece]).setTables
      { tables with stations := tables.stations.set 11 (.jacket 1 .small) }
    let c := two.updJacket 1 fun j => { j with state := .idle }
    c.eligible 0 piece = true ∧ c.eligible 1 piece = true ∧ (c.verif 0).verified = true ∧ (c.verif 1).verified = false ∧
    c.jacketFor piece = some 1 ∧ (two.jacketFor piece) = some 0 ∧ ((c.jacketPass 1).jacket 1).awaited = some 300 ∧
    ((c.jacketPass 0).jacket 0).awaited = some 301 ∧ alike (c.jacketPass 2) c := by decide +kernel

/-- Outside RUNNING and STOPPING no pass assigns; START, STOP, RESUME and ENABLE make the passes, and the waiting record goes to the idle jacket. -/
theorem test_commands_make_passes :
    let c := withRecords [cylinder .waiting]
    let off := c.updJacket 0 fun j => { j with state := .disabled }
    let piece := (withRecords [{ cylinder .waiting with spec := reference }]).updJacket 0 fun j => { j with state := .disabled }
    let held := { inLine .holding c with mark := .powerOn, line := { c.line with state := .holding, holdFrom := .running } }
    let routed (d : Controller) : Prop := stateOf d = some .routed ∧ (d.jacket 0).awaited = some 300
    (inLine .stopped c).Takes (hdr 1) 2 ∧ alike ((inLine .holding c).recordPass 0) (inLine .holding c) ∧
    alike ((inLine .stopped c).jacketPass 0) (inLine .stopped c) ∧ c.waitingQueue ≠ [] ∧
    routed (after (.start (hdr 1) []) (inLine .stopping c)) ∧ routed (after (.stop (hdr 1) []) c) ∧
    routed (after (.resume (hdr 1) []) held) ∧ stateOf (after (.jacketEnable (hdr 1) [0]) off) = some .waiting ∧
    routed (after (.jacketEnable (hdr 1) [0]) piece) := by decide +kernel

theorem test_arrival :
    let c := withJacket .routed awaiting300
    let d := after (.jacketArrival (hdr 10) s300) c
    let held := after (.jacketArrival (hdr 10) s300) (inLine .holding c)
    let other := after (.jacketArrival (hdr 10) s301) c
    c.RegisterSound ∧ c.Hears (hdr 10) 4 ∧ c.roleAt 10 = .jacket 0 .small ∧ readSerial s300 = some 300 ∧
    (c.jacket 0).state = .awaiting ∧ (c.jacket 0).slot = some 0 ∧ c.recordAt 0 = some (cylinder .routed) ∧
    (c.tables.blockAt 0).kind = .zero ∧ (d.jacket 0).state = .running .zero ∧ stateOf d = some .testing ∧
    (inLine .holding c).line.state = .holding ∧ (held.jacket 0).state = .heldVented ∧ stateOf held = some .testing ∧
    (c.jacket 0).awaited ≠ some 301 ∧ (other.jacket 0).state = .fault .misroute ∧ (other.jacket 0).loaded = some 301 ∧
    stateOf other = some .manualHeld ∧ queued other = [.notice .jacketFault 1 0 0] ∧ (base.jacket 0).state ≠ .awaiting ∧
    queued (after (.jacketArrival (hdr 10) s300) base) = [.notice .strayReport 1 300 98] := by
  refine ⟨sound_of (by decide), ?_⟩
  decide +kernel

/-- The record that carries the serial of a misroute: held when believed elsewhere, its own jacket freed for the next record, left alone in test. -/
theorem test_misrouted_serial :
    let r : Record := { cylinder .routed with jacket := some 0 }
    let x (s : RecordState) : Record := { cylinder s with slot := 1, serial := 301, jacket := some 1 }
    let next : Record := { cylinder .waiting with slot := 2, serial := 302, spec := reference }
    let two := (withRecords []).setTables { tables with stations := tables.stations.set 11 (.jacket 1 .small) }
    let c (s : RecordState) (l : List Record) : Controller := (({ two with records := r :: x s :: l }).updJacket 0 fun _ => awaiting300).updJacket 1
      fun _ => { awaiting300 with slot := some 1, awaited := some 301 }
    let d (s : RecordState) (l : List Record) := after (.jacketArrival (hdr 10) s301) (c s l)
    (c .routed []).RegisterSound ∧ (c .routed []).recordOf 301 = some (x .routed) ∧ (c .routed []).waitingQueue = [] ∧
    (d .routed []).records.map Record.state = [.manualHeld, .manualHeld] ∧ ((d .routed []).jacket 1).state = .idle ∧
    ((d .routed []).jacket 0).state = .fault .misroute ∧ ((d .routed [next]).jacket 1).awaited = some 302 ∧
    (d .stamping []).records.map Record.heldCause = [some .misroute, some .misroute] ∧
    (d .testing []).records.map Record.state = [.manualHeld, .testing] := by
  refine ⟨sound_of (by decide +kernel), ?_⟩
  decide +kernel

/-- A jacket RUNNING the block at an index of the program. -/
def runningBlock (i : Nat) (kind : BlockKind) : Jacket := { serving (.running kind) with currentBlock := i, sampleAge := 9, elapsed := 50 }

/-- Jacket 0 after a sample of this pressure. -/
def sampled (j : Jacket) (pressure : Nat) : Controller := after (.jacketSample (hdr 10) (sample pressure)) (withJacket .testing j)

theorem test_overpressure :
    let c := withJacket .testing (runningBlock 1 .ramp)
    let d := sampled (runningBlock 1 .ramp) 11001
    c.Hears (hdr 10) 6 ∧ c.roleAt 10 = .jacket 0 .small ∧
    readSample (sample 11001) = some { pressure := 11001, level := 40, temperature := 200 } ∧ (c.jacket 0).state = .running .ramp ∧
    (c.servedSpec 0).pressureLimit = 11000 ∧ (d.jacket 0).state = .recovering .early ∧ (d.jacket 0).earlyEnd = some .overpressure ∧
    queued d = [.command 0 .vent, .notice .overpressure 1 0 0] ∧
    (sampled (runningBlock 1 .ramp) 11000).jacket 0 ≠ d.jacket 0 ∧
    (sampled (serving (.recovering .hold)) 11001).jacket 0 = serving (.recovering .hold) := by decide +kernel

theorem test_samples :
    let one (p : Nat) : Accumulator := { level := 40, pressure := p, temperature := 200, samples := 1 }
    let c := withJacket .testing (runningBlock 0 .zero)
    (c.currentBlock 0).kind = .zero ∧ (runningBlock 0 .zero).acc.samples + 1 < (c.currentBlock 0).samples ∧
    c.line.items.zeroThreshold = 200 ∧ ((sampled (runningBlock 0 .zero) 200).jacket 0).acc = one 200 ∧
    ((sampled { runningBlock 0 .zero with acc := one 1 } 201).jacket 0).acc = .clear ∧
    ((sampled (runningBlock 2 .hold) 9000).jacket 0).acc = one 9000 ∧
    ((sampled (runningBlock 3 .vent) 200).jacket 0).settleStart = some 50 ∧ ((sampled (runningBlock 3 .vent) 200).jacket 0).acc = one 200 ∧
    (sampled (runningBlock 3 .vent) 201).jacket 0 = { runningBlock 3 .vent with sampleAge := 0 } ∧
    ((sampled { runningBlock 3 .vent with settleStart := some 9 } 201).jacket 0).acc = one 201 ∧
    (sampled (runningBlock 9 .dwell) 5).jacket 0 = { runningBlock 9 .dwell with sampleAge := 0 } ∧
    (serving .unloading).state.pressing = false ∧ (sampled (serving .unloading) 5).jacket 0 = serving .unloading ∧
    recordMeans { level := 16 * 65535, pressure := 3, temperature := 0, samples := 2 } 16 = { level := 65535, pressure := 0, temperature := 0 } := by
  decide +kernel

theorem test_settling :
    let last := some { level := 45, pressure := 100, temperature := 200 }
    let j : Jacket :=
      { runningBlock 0 .zero with settleStart := some 0, lastMeans := last, acc := { level := 40, pressure := 100, temperature := 200, samples := 1 } }
    let d := sampled j 100
    j.settled (base.tables.blockAt 0) { level := 40, pressure := 100, temperature := 200 } = true ∧
    j.settled (base.tables.blockAt 0) { level := 39, pressure := 100, temperature := 200 } = false ∧
    { runningBlock 2 .hold with settleStart := some 0, lastMeans := last, elapsed := 299 }.settled (base.tables.blockAt 2) { level := 40, pressure := 0, temperature := 0 } = false ∧
    (d.jacket 0).zero = some ⟨40, 200⟩ ∧ (d.jacket 0).state = .running .ramp ∧ (d.jacket 0).currentBlock = 1 ∧
    queued d = [.command 0 (.set 10000 50)] := by decide +kernel

/-- A record that does not settle: the first of the reading HOLD, the last allowed one, and the last VENT's settled one. -/
theorem test_unsettled :
    let one : Accumulator := { level := 41, pressure := 8000, temperature := 200, samples := 1 }
    let first := sampled { runningBlock 2 .hold with acc := one, settleStart := some 0 } 9000
    let last := sampled { runningBlock 2 .hold with acc := one, recordsCompleted := 63, firstPressure := some 7 } 9000
    let vent := { runningBlock 3 .vent with
      acc := one, settleStart := some 0, zero := some ⟨30, 200⟩, lastMeans := some { level := 45, pressure := 0, temperature := 0 } }
    (base.tables.blockAt 2).samples ≤ one.samples + 1 ∧ (base.tables.blockAt 2).maxRecords = 0 ∧
    first.jacket 0 = { runningBlock 2 .hold with
      sampleAge := 0, settleStart := some 0, recordsCompleted := 1, firstPressure := some 8500
      lastMeans := some { level := 41, pressure := 8500, temperature := 200 } } ∧
    (last.jacket 0).earlyEnd = some .unstable ∧ (last.jacket 0).state = .recovering .early ∧ (last.jacket 0).recordsCompleted = 64 ∧
    (last.jacket 0).firstPressure = some 7 ∧ queued last = [.command 0 .vent] ∧ (base.tables.blockAt 3).chain = false ∧
    ((sampled vent 5000).recordAt 0).bind (fun r => r.lastResult.map fun l => l.figures.ePerm) = some 11 ∧
    ((sampled vent 5000).jacket 0).vent = none ∧ ((sampled vent 5000).jacket 0).state = .running .zero := by decide +kernel

theorem test_ramp :
    let c := withJacket .testing (runningBlock 1 .ramp)
    (c.currentBlock 0).kind = .ramp ∧ (c.currentBlock 0).chain = true ∧ (c.tables.blockAt 2).kind = .hold ∧
    rampThreshold (c.servedSpec 0) (c.currentBlock 0) = 9900 ∧
    (sampled (runningBlock 1 .ramp) 9899).jacket 0 = { runningBlock 1 .ramp with sampleAge := 0 } ∧
    ((sampled (runningBlock 1 .ramp) 9900).jacket 0).state = .running .hold ∧
    ((sampled (runningBlock 1 .ramp) 9900).jacket 0).settleStart = some 0 := by decide +kernel

theorem test_settled_readings :
    let m : Means := { level := 100, pressure := 9000, temperature := 200 }
    let c (i : Nat) (kind : BlockKind) :=
      withJacket .testing { runningBlock i kind with zero := some ⟨30, 200⟩, firstPressure := some 9020 }
    let hold (first : Nat) := ((c 2 .hold).updJacket 0 fun j => { j with firstPressure := some first }).settle 0 (base.tables.blockAt 2) m
    let vent := { base.tables.blockAt 3 with chain := true }
    (base.tables.blockAt 0).chain = true ∧ (base.tables.blockAt 2).chain = true ∧ (base.tables.blockAt 2).reading = true ∧
    (base.tables.blockAt 2).leak = some 20 ∧ (((c 0 .zero).settle 0 (base.tables.blockAt 0) m).jacket 0).zero = some ⟨100, 200⟩ ∧
    ((hold 9020).jacket 0).hold = some ⟨70, 9000⟩ ∧ ((hold 9020).jacket 0).earlyEnd = none ∧ ((hold 9020).jacket 0).state = .running .vent ∧
    ((hold 9021).jacket 0).earlyEnd = some .leak ∧ ((hold 9021).jacket 0).state = .recovering .early ∧ vent.kind = .vent ∧
    (((c 3 .vent).settle 0 vent m).jacket 0).vent = none := by decide +kernel

/-- A settled record completes its block, and the next one is entered: from a ZERO, from a HOLD, from a VENT that is not the last; a DWELL of
duration 0 is passed over. -/
theorem test_completion :
    let m : Means := { level := 100, pressure := 9000, temperature := 200 }
    let c (i : Nat) (kind : BlockKind) (blocks : Vector Block 96) :=
      (withJacket .testing { runningBlock i kind with firstPressure := some 9000 }).setTables { tables with blocks }
    let dwell : Block := { Block.powerOn with kind := .dwell, chain := true }
    let goes (d : Controller) (kind : BlockKind) (i : Nat) : Prop := (d.jacket 0).state = .running kind ∧ (d.jacket 0).currentBlock = i
    let vents := (tables.blocks.set 3 { tables.blockAt 3 with chain := true }).set 4 (tables.blockAt 0)
    goes ((c 0 .zero tables.blocks).settle 0 (tables.blockAt 0) m) .ramp 1 ∧
    goes ((c 2 .hold tables.blocks).settle 0 (tables.blockAt 2) m) .vent 3 ∧
    goes ((c 2 .hold tables.blocks).settle 0 { tables.blockAt 2 with reading := false } m) .vent 3 ∧
    goes ((c 3 .vent vents).settle 0 { tables.blockAt 3 with chain := true } m) .zero 4 ∧
    queued ((c 0 .zero tables.blocks).settle 0 (tables.blockAt 0) m) = [.command 0 (.set 10000 50)] ∧
    queued ((c 2 .hold tables.blocks).settle 0 (tables.blockAt 2) m) = [.command 0 .vent] ∧
    goes ((c 0 .zero (tables.blocks.set 1 dwell)).settle 0 (tables.blockAt 0) m) .hold 2 ∧
    goes ((c 0 .zero (tables.blocks.set 1 { dwell with duration := 1 })).settle 0 (tables.blockAt 0) m) .dwell 1 := by decide +kernel

theorem test_low_sample :
    let c (reason : RecoverReason) := withJacket .testing (serving (.recovering reason))
    let again := sampled { serving (.recovering .hold) with restartPending := true } 200
    let early := sampled { serving (.recovering .early) with earlyEnd := some .timeout } 200
    (c .hold).RegisterSound ∧ (c .hold).Hears (hdr 10) 6 ∧ (c .hold).recordAt 0 = some (cylinder .testing) ∧
    ((sampled (serving (.recovering .hold)) 200).jacket 0).state = .heldVented ∧ (again.jacket 0).state = .running .zero ∧
    (again.recordAt 0).map Record.attempts = some 1 ∧
    ((sampled (serving (.recovering .restart)) 200).jacket 0) = { Jacket.powerOn with state := .disabled } ∧
    ((sampled (serving (.recovering .abort)) 200).jacket 0).onClear = some .requeue ∧
    queued (sampled (serving (.recovering .abort)) 200) = [.command 0 .unload] ∧
    (early.recordAt 0).map Record.countedInvalids = some 1 ∧ (early.jacket 0).state = .running .zero := by
  refine ⟨sound_of (by decide +kernel), ?_⟩
  decide +kernel

theorem test_clear :
    let passed : Record := { cylinder .unloading with verdict := some .pass, verdictDate := some { year := 2031, month := 4, day := 30 } }
    let j (o : OnClear) : Jacket := { serving .unloading with onClear := some o }
    let c (o : OnClear) := (withRecords [passed]).updJacket 0 fun _ => j o
    let clear (c : Controller) := after (.jacketClear (hdr 10) s300) c
    let suspect (c : Controller) := c.updVerif 0 fun v => { v with count := 3 }
    let faulted := withJacket .manualHeld { serving (.fault .silent) with slot := none }
    (c .route).RegisterSound ∧ (c .requeue).RegisterSound ∧ (c .route).Hears (hdr 10) 4 ∧ ((c .route).verif 0).count = 0 ∧
    (c .route).recordAt 0 = some passed ∧ ((clear (c .route)).jacket 0).state = .idle ∧ stateOf (clear (c .route)) = some .stamping ∧
    queued (clear (c .route)) = [.gate 300 .stamp, .stampOrder 300 [0x4B, 0x37, 0x50, 0x32, 0x20, 0x30, 0x34, 0x2F, 0x33, 0x31, 0x4C]] ∧
    ((clear (suspect (c .route))).jacket 0).state = .fault .suspect ∧
    (clear (suspect (c .route))).ring.queue.any (fun e => e.body == .notice .jacketFault 1 0 4) = true ∧
    stateOf (clear (inLine .holding (c .requeue))) = some .waiting ∧ ((clear (inLine .holding (c .requeue))).jacket 0).state = .idle ∧
    stateOf (clear (c .requeue)) = some .routed ∧ ((faulted.jacket 0).state.isFault = true ∧ (faulted.jacket 0).loaded = some 300) ∧
    ((clear faulted).jacket 0).loaded = none ∧ queued (clear base) = [.notice .strayReport 1 300 98] := by
  refine ⟨sound_of (by decide +kernel), sound_of (by decide +kernel), ?_⟩
  decide +kernel

/-- The routes after a clear by verdict; an UNLOAD still queued falls; with REQUEUE and the line moving the record is assigned again. -/
theorem test_clear_routes :
    let c (o : OnClear) (v : Option Verdict) (back : Option Bool) (spec : TypeEntry) : Controller :=
      ((withRecords [{ cylinder .unloading with verdict := v, returnCondemned := back, spec }]).updJacket 0
        fun _ => { serving .unloading with onClear := some o }).enqueue (.command 0 .unload) (.jacket 0)
    let cleared (v : Verdict) (back : Option Bool) (spec : TypeEntry) := after (.jacketClear (hdr 10) s300) (c .route (some v) back spec)
    let again := after (.jacketClear (hdr 10) s300) (c .requeue none none ordinary)
    queued (cleared (.fail .leak) (some true) ordinary) = [.gate 300 .stamp, .stampOrder 300 [0x4B, 0x37, 0x50, 0x32, 0x20, 0x58, 0x58]] ∧
    queued (cleared (.fail .permanent) (some false) ordinary) = [.gate 300 .scrap, .scrapOrder 300] ∧
    queued (cleared (.fail .overpressure) none reference) = [.gate 300 .scrap, .scrapOrder 300] ∧
    queued (cleared (.manual .secondInvalid) none ordinary) = [.gate 300 .manual] ∧
    queued (cleared (.reference .inTolerance) none reference) = [.gate 300 .reference] ∧
    stateOf again = some .routed ∧ (again.jacket 0).awaited = some 300 ∧ queued again = [.gate 300 (.jacket 0)] := by decide +kernel

/-! ### Time-outs and evaluation -/

theorem test_timers :
    let zero (n : Nat) := withJacket .testing { runningBlock 0 .zero with elapsed := n }
    let dwell := (zero 5).setTables { tables with blocks :=
      (tables.blocks.set 20 { Block.powerOn with chain := true, duration := 7 }).set 21 (tables.blockAt 0) }
    let waits (n : Nat) := dwell.updJacket 0 fun j => { j with state := .running .dwell, currentBlock := 20, elapsed := n }
    (2 ^ ((zero 0).currentBlock 0).timeExp * 1000 = 64000) ∧ ((zero 64000).jacket 0).state = .running .zero ∧
    ((after (.blockTimeLimit 0) (zero 64000)).jacket 0).earlyEnd = some .timeout ∧
    alike (after (.blockTimeLimit 0) (zero 63999)) (zero 63999) ∧ ((waits 700).currentBlock 0).chain = true ∧
    ((waits 700).tables.blockAt 21).kind = .zero ∧ ((after (.dwellEnd 0) (waits 700)).jacket 0).state = .running .zero ∧
    alike (after (.dwellEnd 0) (waits 699)) (waits 699) := by decide +kernel

theorem test_faults :
    let c (n : Nat) := withJacket .testing { serving (.recovering .hold) with sampleAge := n, elapsed := 119999 }
    let late := withJacket .testing { serving (.recovering .hold) with elapsed := 120000 }
    let d := after (.sampleAgeLimit 0) (c 2000)
    (c 2000).RegisterSound ∧ ((c 2000).jacket 0).state.pressing = true ∧ (c 2000).line.items.sampleAgeLimit = 2000 ∧
    (c 2000).recordAt 0 = some (cylinder .testing) ∧ (d.jacket 0).state = .fault .silent ∧ stateOf d = some .manualHeld ∧
    queued d = [.notice .manualDivert 1 300 2, .command 0 .vent, .notice .jacketFault 1 0 2] ∧
    alike (after (.sampleAgeLimit 0) (c 1999)) (c 1999) ∧ ((after (.ventLimit 0) late).jacket 0).state = .fault .ventTimeout ∧
    alike (after (.ventLimit 0) (c 0)) (c 0) := by
  refine ⟨sound_of (by decide +kernel), ?_⟩
  decide +kernel

/-- The part that evaluates the worked case's readings in jacket 0, for a record of this form. -/
def evaluated (r : Record) (j : Jacket) : Controller :=
  ((withRecords [r]).updJacket 0 fun _ => { j with state := .running .vent, slot := some 0, loaded := some 300 }).evaluate 0

theorem test_evaluation :
    let r : Record := { cylinder .testing with spec := workedType, attempts := 1 }
    let piece (x : Nat) : Record := { r with spec := { workedType with reference := some { expected := x, tolerance := 12 } } }
    let bad := { workedJacket with earlyEnd := some .leak }
    let verdict (c : Controller) := (c.recordAt 0).bind Record.verdict
    (withRecords [r]).RegisterSound ∧ r.releasePending = false ∧ verdict (evaluated r workedJacket) = some .pass ∧
    queued (evaluated r workedJacket) =
      [.testResult 300 ⟨0, 1, .pass, { z := 1205, t := 8812, ePerm := 477, ratio := 54, elastic := 8335, pRead := 24609 }⟩, .command 0 .unload] ∧
    verdict (evaluated { r with spec := { workedType with ree := some 8334 } } workedJacket) = some (.fail .elastic) ∧
    verdict (evaluated (piece 8800) workedJacket) = some (.reference .inTolerance) ∧
    verdict (evaluated (piece 8799) workedJacket) = some (.reference .outOfTolerance) ∧
    verdict (evaluated (piece 8800) bad) = some (.reference .outOfTolerance) ∧
    verdict (evaluated r bad) = none ∧ verdict (evaluated { r with countedInvalids := 1 } bad) = some (.fail .leak) ∧
    verdict (evaluated { r with countedInvalids := 1 } { bad with earlyEnd := some .timeout }) = some (.manual .secondInvalid) ∧
    ((evaluated r bad).verif 0).count = 1 := by
  refine ⟨sound_of (by decide +kernel), ?_⟩
  decide +kernel

/-- A first counted INVALID: tested again in place, left vented while the line is HOLDING, unloaded with REQUEUE at a count of 3. -/
theorem test_retest :
    let r : Record := { cylinder .testing with attempts := 1 }
    let j : Jacket := { serving (.recovering .early) with earlyEnd := some .leak }
    let c (n : Nat) := ((withRecords [r]).updJacket 0 fun _ => j).updVerif 0 fun v => { v with count := n }
    let again := (c 1).evaluate 0
    let held := (inLine .holding (c 1)).evaluate 0
    let suspect := (c 2).evaluate 0
    (c 1).RegisterSound ∧ (c 1).tables.blockAt (j.programStart) = tables.blockAt 0 ∧ (again.jacket 0).state = .running .zero ∧
    (again.recordAt 0).map Record.attempts = some 2 ∧ (held.jacket 0).state = .heldVented ∧
    (held.recordAt 0).map Record.attempts = some 1 ∧ stateOf held = some .testing ∧ (suspect.jacket 0).state = .unloading ∧
    (suspect.jacket 0).onClear = some .requeue ∧ stateOf suspect = some .unloading ∧ (suspect.verif 0).count = 3 := by
  refine ⟨sound_of (by decide +kernel), ?_⟩
  decide +kernel

/-- What the total's clause of ExpansionFigures asks of a type, and its first reading within the window. -/
theorem test_expansion_witness :
    windowFails { ordinary with ptest := 1000, window := 50 } 950 = false ∧
    normalised { ordinary with ptest := 1000, window := 50 } 1 950 = 1 ∧
    normalised { ordinary with ptest := 1000, window := 50 } 0 950 = 0 ∧
    judgeFigures { ordinary with ratioLimit := 1000 } 1 (expansionRatio 9 1) 0 = .pass ∧
    judgeFigures { ordinary with ratioLimit := 999 } 1 (expansionRatio 9 1) 0 = .fail .permanent := by decide +kernel

/-! ### Stamp, scrap, release -/

theorem test_route :
    let route (v : Verdict) (back : Option Bool) (spec : TypeEntry) :=
      (withRecords [{ cylinder .unloading with verdict := some v, returnCondemned := back, spec }]).route 0
    (withRecords [cylinder .unloading]).RegisterSound ∧
    ({ year := 2099, month := 12, day := 31 } : Date).valid = true ∧ ({ year := 2099, month := 2, day := 29 } : Date).valid = false ∧
    stateOf (route .pass none ordinary) = some .stamping ∧ stateOf (route (.fail .leak) (some true) ordinary) = some .stamping ∧
    stateOf (route (.fail .leak) (some false) ordinary) = some .scrapping ∧
    queued (route (.fail .leak) none ordinary) = [.gate 300 .scrap, .scrapOrder 300] ∧
    stateOf (route (.fail .overpressure) (some true) reference) = some .scrapping ∧
    queued (route (.manual .secondInvalid) none ordinary) = [.gate 300 .manual] ∧
    queued (route (.reference .inTolerance) none reference) = [.gate 300 .reference] := by
  refine ⟨sound_of (by decide), ?_⟩
  decide +kernel

/-- With room for one frame the gate order is placed and the stamp order owed behind it. -/
theorem test_pair_in_order :
    let filler : QueueEntry := { destination := 0, body := .scrapOrder 7, owner := .lost, clearedEnable := false, testMark := false }
    let c := (withRecords [{ cylinder .unloading with verdict := some (.fail .leak), returnCondemned := none }]).setQueue (List.replicate 11 filler)
    ((c.route 0).ring.queue.filter fun e => e.owner == .record 0).map QueueEntry.body = [.gate 300 .scrap] ∧
    ((c.route 0).recordAt 0).map Record.owedOrders = some [.scrap] := by decide +kernel

theorem test_stamp_and_scrap :
    let c := withRecords [{ cylinder .stamping with verdict := some (.fail .leak) }]
    let stamp (o n : Byte) := after (.stampReport (hdr 6) (s300 ++ [o, n])) c
    let scrap (owed : Bool) (o : Byte) :=
      after (.scrapReport (hdr 7) (s300 ++ [o])) (withRecords [{ cylinder .scrapping with resultOwed := owed }])
    c.RegisterSound ∧ c.Hears (hdr 6) 6 ∧ c.roleAt 6 = .stamp ∧ readStampReport (s300 ++ [0, 7]) = some (300, 0, 7) ∧
    queued (stamp 0 7) = [.gate 300 .returnLane] ∧ stateOf (stamp 0 7) = some .leaving ∧ stateOf (stamp 0 6) = some .manualHeld ∧
    ((stamp 1 7).recordOf 300).bind Record.stampProgress = some (7, 7) ∧ queued (stamp 1 7) = [.notice .manualDivert 1 300 3] ∧
    c.roleAt 7 = .scrap ∧ readScrapReport (s300 ++ [1]) = some (300, 1) ∧ stateOf (scrap false 0) = none ∧
    stateOf (scrap true 0) = some .scrapping ∧ stateOf (scrap false 1) = some .manualHeld := by
  refine ⟨sound_of (by decide), ?_⟩
  decide +kernel

theorem test_release :
    let c (r : Record) := withRecords [r]
    let ask (r : Record) := after (.release (hdr 1) s300) (c r)
    let reply (x : Option Reason) : List Body := [.reply (replyTo (hdr 1) 3 x [10])]
    (c (cylinder .manualHeld)).RegisterSound ∧ (c (cylinder .manualHeld)).Takes (hdr 1) 6 ∧ read4 0 0 1 44 = 300 ∧
    (ask (cylinder .manualHeld)).records = [] ∧ queued (ask (cylinder .manualHeld)) = reply none ∧
    (ask { cylinder .manualHeld with resultOwed := true }).records = [{ cylinder .manualHeld with resultOwed := true, releasePending := true }] ∧
    queued (ask { cylinder .manualHeld with resultOwed := true, releasePending := true }) = reply none ∧
    queued (ask (cylinder .leaving)) = reply (some .busy) ∧ queued (after (.release (hdr 1) s301) base) = reply (some .notFound) := by
  refine ⟨sound_of (by decide), ?_⟩
  decide +kernel

/-! ### Line Control -/

theorem test_start_stop :
    let stopped := stoppedBase
    let no (c : Controller) (i : Instr) (code : Byte) (x : Reason) : Prop :=
      queued (after i c) = [.reply (replyTo (hdr 1) 3 (some x) [code])] ∧ (after i c).line = c.line
    let noDate := { stopped with line := { stopped.line with date := none } }
    let noMap := stopped.setTables { tables with stations := tables.stations.set 7 .none }
    (withRecords [cylinder .leaving]).RegisterSound ∧
    stopped.Takes (hdr 1) 2 ∧ stopped.mapComplete = true ∧ (after (.start (hdr 1) []) stopped).line.state = .running ∧
    no base (.start (hdr 1) []) 1 .lineState ∧ no noDate (.start (hdr 1) []) 1 .noDate ∧ noMap.mapComplete = false ∧
    no noMap (.start (hdr 1) []) 1 .noMap ∧ no (stopped.setRingStatus .down) (.start (hdr 1) []) 1 .ringDown ∧
    (after (.stop (hdr 1) []) base).line.state = .stopped ∧ (withRecords [cylinder .leaving]).waitingQueue = [] ∧
    (after (.stop (hdr 1) []) (withRecords [cylinder .leaving])).line.state = .stopping ∧ no stopped (.stop (hdr 1) []) 2 .lineState := by
  refine ⟨sound_of (by decide), ?_⟩
  decide +kernel

theorem test_resume :
    let holding (f : LineState) (c : Controller) := { c with line := { c.line with state := .holding, holdFrom := f }, mark := .powerOn }
    let c := holding .running (withJacket .testing (serving .heldVented))
    let d := after (.resume (hdr 1) []) c
    let active := c.setCause .ring true
    let drain := holding .stopping (withJacket .testing (serving (.recovering .hold)))
    let drained := after (.resume (hdr 1) []) drain
    drain.records ≠ [] ∧ drained.line.state = .stopping ∧ drained.line.holdFrom = .stopped ∧ (drained.jacket 0).restartPending = true ∧
    c.Takes (hdr 1) 2 ∧ c.line.causeLineHold = false ∧ c.line.causeRing = false ∧ (c.jacket 0).state = .heldVented ∧
    (c.tables.blockAt 0).kind = .zero ∧ d.line.state = .running ∧ (d.jacket 0).state = .running .zero ∧
    (after (.resume (hdr 1) []) (holding .stopping base)).line.state = .stopped ∧
    queued (after (.resume (hdr 1) []) (holding .stopping base)) = [.notice .lineStopped 1 0 0, .reply (replyTo (hdr 1) 3 none [3])] ∧
    queued (after (.resume (hdr 1) []) active) = [.reply (replyTo (hdr 1) 3 (some .holdActive) [3])] ∧
    queued (after (.resume (hdr 1) []) base) = [.reply (replyTo (hdr 1) 3 (some .lineState) [3])] := by decide +kernel

/-- RESUME counts the attempt of the record that a HELD_VENTED jacket starts again. -/
theorem test_resume_counts :
    let c := { withJacket .testing (serving .heldVented) with mark := .powerOn, line := { base.line with state := .holding, holdFrom := .running } }
    c.RegisterSound ∧ c.recordAt 0 = some (cylinder .testing) ∧ (∀ m : JacketNo, m ≠ 0 → (c.jacket m).slot ≠ some 0) ∧
    ((after (.resume (hdr 1) []) c).recordAt 0).map Record.attempts = some 1 := by
  refine ⟨sound_of (by decide +kernel), ?_⟩
  decide +kernel

theorem test_restart :
    let c := inLine .holding (withJacket .testing (serving (.recovering .hold)))
    let d := after (.restart (hdr 1) []) c
    let e := after (.restart (hdr 1) []) (c.setCause .lineHold true)
    c.Takes (hdr 1) 2 ∧ d.records = [] ∧ d.line.state = .stopped ∧ (d.jacket 0).state = .recovering .restart ∧
    (d.jacket 1).state = .disabled ∧ d.verification = c.verification ∧
    queued d = [.command 0 .vent, .infeed .hold, .reply (replyTo (hdr 1) 3 none [4])] ∧ e.line.state = .holding ∧
    e.line.holdFrom = .stopped ∧
    queued (after (.restart (hdr 1) []) base) = [.reply (replyTo (hdr 1) 3 (some .lineState) [4])] := by decide +kernel

/-- RESTART keeps the VENTs of the queue, and the owners of outstanding commands alone. -/
theorem test_restart_queue :
    let c := ((withJacket .testing (serving (.running .ramp))).enqueue (.scrapOrder 7) (.record 0)).enqueue (.command 1 .vent) (.jacket 1)
    let d := after (.restart (hdr 1) []) (withOut (inLine .holding c) [out 4 (.record 0), out 5 (.jacket 1), out 6 (.recordless 9)])
    let owing := (inLine .holding c).updJacket 2 fun j => { j with owedCommand := some .vent }
    queued d = [.command 1 .vent, .command 0 .vent, .infeed .hold, .reply (replyTo (hdr 1) 3 none [4])] ∧
    d.ring.outstanding = [out 4 .lost, out 5 (.jacket 1), out 6 (.recordless 9)] ∧
    queued (after (.restart (hdr 1) []) owing) =
      [.command 1 .vent, .command 2 .vent, .command 0 .vent, .infeed .hold, .reply (replyTo (hdr 1) 3 none [4])] := by decide +kernel

theorem test_setDate :
    let d := after (.setDate (hdr 1) [7, 239, 4, 18]) base
    let same := after (.setDate (hdr 1) [7, 239, 4, 17]) base
    let bad := after (.setDate (hdr 1) [7, 239, 4, 31]) base
    base.Takes (hdr 1) 6 ∧ read2 7 239 = 2031 ∧ d.line.date = some { year := 2031, month := 4, day := 18 } ∧
    d.verif 0 = { verified := false, date := some { year := 2031, month := 4, day := 17 }, count := 0 } ∧
    (same.verif 0).verified = true ∧ (bad.verif 0).verified = true ∧ queued bad = [.reply (replyTo (hdr 1) 3 (some .badField) [5])] := by
  decide +kernel

theorem test_setConfig :
    let stopped := stoppedBase
    let items (i : List Byte) := (after (.setConfig (hdr 1) i) stopped).line.items
    let no (c : Controller) (i : List Byte) (x : Reason) : Prop :=
      queued (after (.setConfig (hdr 1) i) c) = [.reply (replyTo (hdr 1) 3 (some x) [6])]
    stopped.Takes (hdr 1) 5 ∧ stopped.Takes (hdr 1) 7 ∧ stopped.line.state = .stopped ∧ (items [1, 0, 250]).returnTime = 250 ∧
    (items [2, 0, 100]).sampleAgeLimit = 100 ∧ (items [3, 0, 11]).advanceWindow = 11 ∧ (items [4, 0, 1]).thermalLimit = 1 ∧
    (items [5, 3, 232]).zeroThreshold = 1000 ∧ (items [0, 0x5A, 0x39, 0x41, 0x30]).plantCode = [0x5A, 0x39, 0x41, 0x30] ∧
    no stopped [1, 0, 251] .badField ∧ no stopped [6, 0, 1] .badField ∧ no stopped [0, 0x5A, 0x39, 0x41, 0x2F] .badField ∧
    no base [1, 0, 25] .lineState ∧ no base [0, 0x30, 0x30, 0x30, 0x30] .lineState := by decide +kernel

/-! ### Jackets and notices -/

theorem test_jacket_commands :
    let off := base.updJacket 0 fun j => { j with state := .disabled }
    let run := withJacket .testing (serving (.running .ramp))
    let no (c : Controller) (i : Instr) (code : Byte) (x : Reason) : Prop :=
      queued (after i c) = [.reply (replyTo (hdr 1) 3 (some x) [code])]
    off.Takes (hdr 1) 3 ∧ off.waitingQueue = [] ∧ (tables.stations.get 10).isJacket 0 = true ∧
    ((after (.jacketEnable (hdr 1) [0]) off).jacket 0) = { Jacket.powerOn with state := .idle } ∧
    (after (.jacketEnable (hdr 1) [0]) off).verif 0 = .powerOn ∧ no off (.jacketEnable (hdr 1) [7]) 7 .notMapped ∧
    no base (.jacketEnable (hdr 1) [0]) 7 .busy ∧ ((after (.jacketDisable (hdr 1) [0]) base).jacket 0).state = .disabled ∧
    no off (.jacketDisable (hdr 1) [0]) 8 .busy ∧ ((after (.jacketAbort (hdr 1) [0]) run).jacket 0).state = .recovering .abort ∧
    queued (after (.jacketAbort (hdr 1) [0]) run) = [.command 0 .vent, .reply (replyTo (hdr 1) 3 none [9])] ∧
    no base (.jacketAbort (hdr 1) [0]) 9 .busy := by decide +kernel

theorem test_notice_commands :
    let ones : List Byte := List.replicate 12 1
    let d := after (.setNoticeEnables (hdr 1) (0 :: ones.tail)) base
    base.Takes (hdr 1) 14 ∧ base.Takes (hdr 1) 3 ∧ (d.notice .overpressure).enable = false ∧ (d.notice .lineStopped).enable = true ∧
    queued (after (.setNoticeEnables (hdr 1) (2 :: ones.tail)) base) = [.reply (replyTo (hdr 1) 3 (some .badField) [11])] ∧
    queued (after (.testNotice (hdr 1) [12]) base) = [.notice .lineStopped 1 0 0, .reply (replyTo (hdr 1) 3 none [12])] ∧
    queued (after (.testNotice (hdr 1) [13]) base) = [.reply (replyTo (hdr 1) 3 (some .badField) [12])] ∧
    queued (after (.testNotice (hdr 1) [0]) base) = [.reply (replyTo (hdr 1) 3 (some .badField) [12])] ∧
    ((after (.testNotice (hdr 1) [4]) base).notice .jacketFault).enable = true := by decide +kernel

theorem test_raise :
    let off := base.updNotice .lineHold fun s => { s with enable := false, count := 255 }
    let full := base.setQueue (List.replicate 16 { destination := 0, body := .command 0 .vent, owner := .lost, clearedEnable := false, testMark := false })
    let twelve := base.setQueue (List.replicate 12 { destination := 0, body := .scrapOrder 0, owner := .lost, clearedEnable := false, testMark := false })
    base.tables.stations.get 1 = .master ∧ base.hasRoom (.notice .jacketFault 1 2 3) = true ∧
    (base.raise .jacketFault 2 3).notice .jacketFault = { Notice.powerOn with enable := false } ∧
    queued (base.raise .jacketFault 2 3) = [.notice .jacketFault 1 2 3] ∧ (off.notice .lineHold).enable = false ∧
    ((off.raise .lineHold 2 3).notice .lineHold).count = 255 ∧ full.hasRoom (.command 0 .vent) = false ∧
    twelve.hasRoom (.command 0 .vent) = true ∧ twelve.hasRoom (.scrapOrder 0) = false ∧
    (inLine .holding base).hasRoom (.scrapOrder 0) = false ∧ (inLine .holding base).hasRoom (.notice .lineHold 1 0 0) = true := by
  decide +kernel

/-- The owed arbitration places the owed frames in the order of its groups; in a hold it passes over the frames of the hold set. -/
theorem test_arbitration_order :
    let r : Record := { cylinder .leaving with
      owedOrders := [.gate .fill], resultOwed := true, lastResult := some ⟨0, 1, .pass, ⟨0, 0, 0, 0, 0, 0⟩⟩ }
    let owing := (((withRecords [r]).updJacket 0 fun j => { j with owedCommand := some .unload }).updJacket 1
      fun j => { j with owedCommand := some .vent }).updNotice .lineHold fun n => { n with pending := true, count := 2 }
    let c := (owing.setMark { owing.mark with owed := some { order := .release, origin := .fresh } }).setBuffer (.holding (replyTo (hdr 1) 3 none [1]))
    let held := inLine .holding { c with mark := .powerOn }
    c.RegisterSound ∧ c.mark.reasons = c.infeedReasons ∧ c.mark.value = c.infeedReasons.wanted ∧
    queued c.arbitrate =
      [.command 1 .vent, .testResult 300 ⟨0, 1, .pass, ⟨0, 0, 0, 0, 0, 0⟩⟩, .gate 300 .fill, .command 0 .unload, .infeed .release,
       .reply (replyTo (hdr 1) 3 none [1]), .notice .lineHold 2 0 0] ∧
    held.mark.reasons = held.infeedReasons ∧ held.mark.value = held.infeedReasons.wanted ∧
    queued held.arbitrate =
      [.command 1 .vent, .testResult 300 ⟨0, 1, .pass, ⟨0, 0, 0, 0, 0, 0⟩⟩, .reply (replyTo (hdr 1) 3 none [1]), .notice .lineHold 2 0 0] := by
  refine ⟨sound_of (by decide +kernel), ?_⟩
  decide +kernel

/-- A NOTICE of TEST NOTICE that the hold purge removes gives its class the test mark back, so the placement after the hold leaves the
enable set; a genuine raise in between takes the mark away. -/
theorem test_purged_test_notice :
    let asked := after (.testNotice (hdr 1) [9]) base
    let held := after .holdAsserted asked
    let again := (after .holdReleased held).resumeLine
    let raised := (after .holdReleased (held.raise .strayReport 5 32)).resumeLine
    (asked.notice .strayReport).testMark = false ∧
    held.notice .strayReport = { pending := true, enable := true, count := 1, subject := 0, cause := 0, testMark := true } ∧
    (again.toOption.map fun c => c.notice .strayReport) = some Notice.powerOn ∧
    (raised.toOption.map fun c => c.notice .strayReport) = some { Notice.powerOn with enable := false } := by decide +kernel

theorem test_infeed_flips :
    let stopped := inLine .stopped base
    let full := stopped.setQueue (List.replicate 16 { destination := 0, body := .command 0 .vent, owner := .lost, clearedEnable := false, testMark := false })
    let owing := stopped.setMark { stopped.mark with owed := some { order := .release, origin := .fresh } }
    base.mark.value = base.infeedReasons.wanted ∧ alike (base.judge false) base ∧ stopped.mark.value ≠ stopped.infeedReasons.wanted ∧
    stopped.hasRoom (.infeed .hold) = true ∧ queued (stopped.judge false) = [.infeed .hold] ∧ full.hasRoom (.infeed .hold) = false ∧
    (full.judge false).mark.owed = some { order := .hold, origin := .fresh } ∧ (owing.judge false).mark.owed = none ∧
    queued (owing.judge false) = [] := by decide +kernel

/-- A flip with the opposite frame owed REPEAT, a flip at a freeing, and the INFEED_HELD of a flip to HELD while RUNNING, sent or pending. -/
theorem test_infeed_flips_further :
    let stopped := inLine .stopped base
    let repeats := stopped.setMark { stopped.mark with owed := some { order := .release, origin := .repeated } }
    let filler : QueueEntry := { destination := 0, body := .scrapOrder 7, owner := .lost, clearedEnable := false, testMark := false }
    let crowded := base.setQueue (List.replicate 12 filler)
    let full := withRecords ((List.range 64).map fun i => { cylinder .waiting with slot := i, serial := i })
    queued (repeats.judge false) = [.infeed .hold] ∧ (repeats.judge false).mark.owed = none ∧
    queued (repeats.judge true) = [] ∧ (repeats.judge true).mark.owed = some { order := .hold, origin := .fresh } ∧
    queued (stopped.judge true) = [] ∧ (stopped.judge true).mark.owed = some { order := .hold, origin := .fresh } ∧
    (queued (crowded.judge false)).drop 12 = [.infeed .hold] ∧ (crowded.judge false).mark.value = .held ∧
    (crowded.judge false).notice .infeedHeld = { pending := true, enable := true, count := 1, subject := 0, cause := 4, testMark := false } ∧
    (crowded.notice .infeedHeld).enable = true ∧ queued (full.judge false) = [.infeed .hold, .notice .infeedHeld 1 0 2] := by
  decide +kernel

theorem test_hold_restores_orders :
    let c := (withRecords [cylinder .scrapping]).enqueue (.scrapOrder 300) (.record 0)
    c.RegisterSound ∧ c.recordAt 0 = some (cylinder .scrapping) ∧ queued c = [Order.scrap.body 300] ∧
    (after .holdAsserted c).records = [{ cylinder .scrapping with owedOrders := [.scrap] }] := by
  refine ⟨sound_of (by decide), ?_⟩
  decide +kernel

/-! ### Requests -/

theorem test_bad_requests :
    let no (i : Instr) (kind : Nat) (x : Reason) (data : List Byte) : Prop :=
      queued (after i base) = [.reply (replyTo (hdr 1) kind (some x) data)]
    base.Takes (hdr 1) 0 ∧ base.Takes (hdr 1) 200 ∧ no (.manageUnsupported (hdr 1) [7]) 7 .unsupported [] ∧
    no (.manageUnsupported (hdr 1) []) 0 .badField [] ∧ no (.commandUnsupported (hdr 1) [13]) 3 .unsupported [13] ∧
    no (.commandUnsupported (hdr 1) []) 3 .badField [] ∧ no (.start (hdr 1) [0]) 3 .badField [1] ∧
    no (.setConfig (hdr 1) [0, 1, 2]) 3 .badField [6] ∧
    no (.jacketEnable (hdr 1) [8]) 3 .badIndex [7] ∧ no (.jacketView (hdr 1) [0, 8]) 4 .badIndex [] ∧
    no (.recordView (hdr 1) []) 5 .badField [] ∧
    no (.registerList (hdr 1) []) 6 .badField [] ∧ no (.tableRead (hdr 1) [1]) 2 .badField [] ∧
    no (.tableWrite (hdr 1) [1, 0, 0]) 1 .badField [] ∧
    no (.jacketView (hdr 1) [3, 0]) 4 .badField [] ∧ no (.frozenFirst (hdr 1) []) 4 .badField [] ∧
    no (.frozenNext (hdr 1) [0]) 4 .badField [] ∧
    no (.tableWrite (hdr 1) [6, 0, 1, 1]) 1 .badTable [0, 1, 1] ∧ no (.tableWrite (hdr 1) [3, 0, 0, 9]) 1 .badField [0, 0, 9] ∧
    no (.tableWrite (hdr 1) [3, 0, 0, 2, 0]) 1 .badField [0, 0, 2] ∧ no (.tableWrite (hdr 1) [3, 1, 0, 1, 0]) 1 .badIndex [1, 0, 1] := by
  decide +kernel

theorem test_tableWrite :
    let stopped := stoppedBase
    let write (fields : List Byte) := after (.tableWrite (hdr 1) fields) stopped
    let second := (write ([2, 0, 1, 2] ++ [1, 0, 0, 2, 0, 9, 5, 0] ++ [1, 0, 0, 3, 0, 8, 5, 0]))
    let invalid : List Byte := [0, 0, 0, 0, 0, 8, 0, 0]
    stopped.Takes (hdr 1) (22 + 5) ∧ (write ([1, 0, 5, 1] ++ ordinary.bytes)).tables.types[5]? = some ordinary ∧
    second.tables.windows[1]? = some { valid := true, base := 512, k := 9, owner := 5, returnCondemned := false } ∧
    second.tables.windows[2]? = some .invalid ∧ queued second = [.reply (replyTo (hdr 1) 1 (some .overlap) [0, 2, 1])] ∧
    (write ([2, 0, 0, 1] ++ invalid)).tables.windows[0]? = some .invalid ∧ (write [3, 0, 255, 1, 0]).tables.defects[255]? = some .accept ∧
    (write ([4, 0, 95, 1] ++ (tables.blockAt 2).bytes)).tables.blocks[95]? = some (tables.blockAt 2) ∧
    (write [5, 0, 62, 1, 6, 7, 1]).tables.stations[62]? = some (.jacket 7 .large) := by decide +kernel

theorem test_table_checks :
    let w (base k : Nat) : Window := { valid := true, base, k, owner := 255, returnCondemned := false }
    let stopped := stoppedBase
    refusal (judgeWindow tables 1 (w 0 7)) = some .badField ∧ refusal (judgeWindow tables 1 (w 0 25)) = some .badField ∧
    refusal (judgeWindow tables 1 (w 128 8)) = some .misaligned ∧ refusal (judgeWindow tables 1 (w 256 8)) = some .overlap ∧
    (judgeWindow tables 0 (w 256 8)).toOption = some (w 256 8) ∧ (judgeWindow tables 1 (w 512 8)).toOption = some (w 512 8) ∧
    (judgeWindow tables 1 .invalid).toOption = some .invalid ∧
    refusal (stopped.judgeStation 11 { role := 9, number := 0, size := 0 }) = some .badField ∧
    refusal (stopped.judgeStation 9 { role := 1, number := 0, size := 0 }) = some .badIndex ∧
    (stopped.judgeStation 63 { role := 0, number := 0, size := 0 }).toOption = some .none ∧
    refusal (base.judgeStation 11 { role := 0, number := 0, size := 0 }) = some .lineState ∧
    refusal (stopped.judgeStation 10 { role := 0, number := 0, size := 0 }) = some .busy ∧
    refusal (stopped.judgeStation 11 { role := 1, number := 0, size := 0 }) = some .duplicateRole ∧
    (stopped.judgeStation 11 { role := 6, number := 1, size := 1 }).toOption = some (.jacket 1 .large) := by decide +kernel

/-- The checks of type, defect and step block records, at the ends of their ranges. -/
theorem test_record_checks :
    let r : TypeRecord := { valid := true, size := 1, ptest := 60000, window := 50, overpressure := 1200, ratioLimit := 1000, ree := 65535,
                            massLoss := 500, massGain := 500, interval := 15, programStart := 0, suffix := 0x5A, expected := 65535, tolerance := 1 }
    let bad (r : TypeRecord) : Prop := refusal (judgeType tables r) = some .badField
    let b : BlockRecord := { kind := 2, chain := false, target := 0, rate := 0, duration := 6000, samples := 16, maxRecords := 63, band := 255,
                             timeExp := 11, reading := true, leak := some 65535 }
    let ramp : BlockRecord := { b with kind := 1, target := 1100, rate := 1, duration := 0, samples := 0, maxRecords := 0, band := 0,
                                       reading := false, leak := none }
    let c := withJacket .routed awaiting300
    refusal (judgeType tables r) = none ∧ bad { r with size := 2 } ∧ bad { r with ptest := 999 } ∧ bad { r with ptest := 60001 } ∧
    bad { r with window := 51 } ∧ bad { r with overpressure := 1201 } ∧ bad { r with interval := 16 } ∧ bad { r with programStart := 96 } ∧
    bad { r with suffix := 0x5B } ∧ bad { r with tolerance := 0 } ∧ refusal (judgeType tables { r with programStart := 1 }) = some .badProgram ∧
    (judgeType tables { r with valid := false, size := 2 }).toOption = some .invalid ∧ refusal (judgeDefect 3) = none ∧
    refusal (judgeDefect 4) = some .badField ∧ refusal (c.judgeBlock 4 b) = none ∧ refusal (c.judgeBlock 3 b) = some .inUse ∧
    refusal (base.judgeBlock 3 b) = none ∧ refusal (c.judgeBlock 4 ramp) = none ∧ refusal (c.judgeBlock 4 { b with kind := 5 }) = some .badField ∧
    refusal (c.judgeBlock 3 { b with samples := 17 }) = some .badField ∧ refusal (c.judgeBlock 4 { b with target := 1 }) = some .badField ∧
    refusal (c.judgeBlock 4 { ramp with duration := 1 }) = some .badField ∧ refusal (c.judgeBlock 4 { ramp with target := 1101 }) = some .badField := by
  decide +kernel

/-- A TABLE_WRITE of one refused record, for each of the five tables. -/
theorem test_refused_writes :
    let c := withJacket .routed awaiting300
    let refused (fields : List Byte) (index : Byte) (x : Reason) : Prop :=
      let d := after (.tableWrite (hdr 1) fields) c
      d.tables = c.tables ∧ queued d = [.reply (replyTo (hdr 1) 1 (some x) [0, index, 1])]
    c.Takes (hdr 1) 27 ∧ (readBlockRecord (tables.blockAt 2).bytes).isSome = true ∧
    refused ([1, 0, 127, 1] ++ { ordinary with programStart := 1 }.bytes) 127 .badProgram ∧
    refused [2, 0, 15, 1, 1, 0, 0, 0, 0, 25, 5, 0] 15 .badField ∧ refused [3, 0, 255, 1, 4] 255 .badField ∧
    refused ([4, 0, 3, 1] ++ (tables.blockAt 2).bytes) 3 .inUse ∧ refused [5, 0, 11, 1, 0, 0, 0] 11 .lineState := by
  decide +kernel

theorem test_reads :
    let c := withRecords [cylinder .waiting]
    let reply (i : Instr) (kind : Nat) (x : Option Reason) (data : List Byte) : Prop :=
      queued (after i c) = [.reply (replyTo (hdr 1) kind x data)]
    c.Takes (hdr 1) 5 ∧ c.Takes (hdr 1) 4 ∧ c.Takes (hdr 1) 2 ∧ reply (.tableRead (hdr 1) [6, 0, 0]) 2 (some .badTable) [] ∧
    reply (.tableRead (hdr 1) [5, 0, 64]) 2 (some .badIndex) [] ∧ reply (.tableRead (hdr 1) [5, 0, 10]) 2 none [6, 0, 0] ∧
    reply (.tableRead (hdr 1) [2, 0, 0]) 2 none [1, 0, 0, 1, 0, 8, 3, 1] ∧ reply (.recordView (hdr 1) s301) 5 (some .notFound) [] ∧
    reply (.recordView (hdr 1) s300) 5 none (cylinder .waiting).viewBytes ∧ (cylinder .waiting).viewBytes.length = 79 ∧
    reply (.registerList (hdr 1) [0]) 6 none [1, 0, 0, 0, 1, 7, 239, 4, 17, 1, 0, 1, 0, 0, 1, 44, 2] ∧
    reply (.registerList (hdr 1) [63]) 6 none [1, 0, 0, 0, 1, 7, 239, 4, 17, 1, 63, 0] ∧
    reply (.registerList (hdr 1) [64]) 6 (some .badIndex) [] := by
  decide +kernel

theorem test_read_back :
    ordinary.valid = true ∧ ordinary.fieldsInRange = true ∧ (readTypeRecord ordinary.bytes).bind TypeRecord.entry? = some ordinary ∧
    (tables.blockAt 2).fieldsOk = true ∧ (readBlockRecord (tables.blockAt 2).bytes).bind BlockRecord.block? = some (tables.blockAt 2) := by
  decide +kernel

theorem test_views :
    let first := after (.frozenFirst (hdr 1) [7]) base
    let again (c : Controller) := after (.frozenNext (hdr 1) []) { c with ring := { c.ring with queue := [], forward := [] } }
    base.Takes (hdr 1) 3 ∧ base.responder.frozen = none ∧ first.responder.frozen.map FrozenViews.pointer = some 7 ∧
    (again first).responder.frozen.map FrozenViews.pointer = some 0 ∧
    queued (again first) = [.reply (replyTo (hdr 1) 4 none (base.viewOf 0).bytes)] ∧
    queued (after (.frozenNext (hdr 1) []) base) = [.reply (replyTo (hdr 1) 4 (some .noSnapshot) [])] ∧
    queued (after (.frozenFirst (hdr 1) [8]) first) = (queued first) ++ [.reply (replyTo (hdr 1) 4 (some .badIndex) [])] ∧
    queued (after (.jacketView (hdr 1) [0, 0]) base) = [.reply (replyTo (hdr 1) 4 none (base.viewOf 0).bytes)] := by
  decide +kernel

/-- A step block in the chain of an AWAITING jacket is protected. -/
theorem test_protected : (withJacket .routed awaiting300).blockProtected 3 = true ∧
(withJacket .routed awaiting300).blockProtected 4 = false := by
  decide +kernel

/-- The pairing law holds of a ROUTED record with its AWAITING jacket. -/
theorem test_paired : ({ withJacket .routed awaiting300 with records := [{ cylinder .routed with jacket := some 0 }] } : Controller).Paired := by
  refine ⟨sound_of (by decide +kernel), by decide +kernel, fun r hr _ => ⟨0, hr, ?_⟩, fun n hn => ?_, by decide +kernel⟩
  · obtain rfl := List.mem_singleton.mp hr
    exact ⟨rfl, rfl, rfl, rfl⟩
  · have e : n = 0 := by revert n; decide +kernel
    subst e
    exact ⟨_, List.mem_singleton.mpr rfl, rfl, rfl, rfl, rfl⟩

end Sys2Proof.Tests
end

section
/-! SUPPORT. The arithmetic of the mass disposition: the change in permille (R64) and the judgment of a loss and of a gain (R65). -/
namespace Sys2Proof.Machine

theorem massPermille_eq (difference tare : Nat) :
    massPermille difference tare = (difference * 1000 + tare / 2) / tare := rfl

@[simp] theorem massPermille_zero (tare : Nat) : massPermille 0 tare = 0 := by
  rw [massPermille_eq, Nat.div_eq_zero_iff]
  omega

/-- A change of at most the tare cannot round above 1,000: the half added before the division is less than one tare. -/
theorem massPermille_le_of_le {difference tare : Nat} (ht : 0 < tare) (hd : difference ≤ tare) :
    massPermille difference tare ≤ 1000 := by
  have below : difference * 1000 + tare / 2 < 1001 * tare := by omega
  exact Nat.le_of_lt_succ ((Nat.div_lt_iff_lt_mul ht).mpr below)

/-- A reading below the tare is judged by its loss alone. -/
theorem judgeMass_of_below {t m : Nat} (e : TypeEntry) (h : m < t) :
    judgeMass e t m = if e.massLoss < massPermille (t - m) t then .loss else .within := by
  have tared : t ≠ 0 := by omega
  have noGain : ¬ t < m := by omega
  simp [judgeMass, tared, h, noGain]

/-- A reading above the tare is judged by its gain alone, taken as 1,000 at most. -/
theorem judgeMass_of_above {t m : Nat} (e : TypeEntry) (ht : 0 < t) (h : t < m) :
    judgeMass e t m = if e.massGain < min 1000 (massPermille (m - t) t) then .gain else .within := by
  have tared : t ≠ 0 := by omega
  have noLoss : ¬ m < t := by omega
  simp only [judgeMass, tared, h, noLoss, if_false, false_and, true_and]

theorem judgeMass_below_iff {t m : Nat} (e : TypeEntry) (h : m < t) :
    (judgeMass e t m = .loss ↔ e.massLoss < massPermille (t - m) t) ∧ judgeMass e t m ≠ .gain := by
  rw [judgeMass_of_below e h]
  split <;> simp [*]

theorem judgeMass_above_iff {t m : Nat} (e : TypeEntry) (ht : 0 < t) (h : t < m) :
    (judgeMass e t m = .gain ↔ e.massGain < min 1000 (massPermille (m - t) t)) ∧ judgeMass e t m ≠ .loss := by
  rw [judgeMass_of_above e ht h]
  split <;> simp only [*, ne_eq, reduceCtorEq, not_false_eq_true, and_self]

/-- A gain that saturates exceeds every limit the table admits (R64). -/
theorem judgeMass_gain_of_saturated {t m : Nat} (e : TypeEntry) (ht : 0 < t) (h : t < m) (limit : e.massGain ≤ 500)
    (saturated : 1000 < massPermille (m - t) t) : judgeMass e t m = .gain :=
  (judgeMass_above_iff e ht h).1.mpr (by omega)

/-- Settles O16: R64's quotient is the definition of `massPermille`; the bound on a loss and the zero sides are arithmetic on it, and the
judgments are those of a reading below and above the tare. -/
theorem massChangePermille : Obligations.MassChangePermille := by
  intro t m ht
  have zeroSide {a b : Nat} (h : a ≤ b) : massPermille (a - b) t = 0 := by
    rw [Nat.sub_eq_zero_of_le h, massPermille_zero]
  exact ⟨massPermille_eq _ _, massPermille_le_of_le ht (Nat.sub_le t m), massPermille_eq _ _, zeroSide, zeroSide,
    fun e above => judgeMass_gain_of_saturated e ht above,
    fun e below => judgeMass_below_iff e below,
    fun e above => judgeMass_above_iff e ht above⟩

end Sys2Proof.Machine
end

section
/-! SUPPORT. What only places frames: the judgment of the infeed mark, a notice raised, a reply offered and the owed frames of the mark put
frames behind those that stand in the queue, and touch nothing else of the ring, the jackets, the register, the tables and the line. -/
namespace Sys2Proof.Machine

/-- Everything is the same but the infeed mark, the notices and the reply buffer, and frames placed behind; a reply made is not lost. -/
structure OnlyPlaces (c d : Controller) : Prop where
  queue : c.ring.queue <+: d.ring.queue
  ring : d.ring = { c.ring with queue := d.ring.queue }
  tables : d.tables = c.tables
  records : d.records = c.records
  jackets : d.jackets = c.jackets
  verification : d.verification = c.verification
  line : d.line = c.line
  replied : ∀ r, c.Replied r → d.Replied r

theorem OnlyPlaces.refl {c : Controller} : OnlyPlaces c c :=
  ⟨List.prefix_rfl, rfl, rfl, rfl, rfl, rfl, rfl, fun _ => id⟩

theorem OnlyPlaces.trans {a b c : Controller} (h : OnlyPlaces a b) (k : OnlyPlaces b c) : OnlyPlaces a c where
  queue := h.queue.trans k.queue
  ring := by rw [k.ring, h.ring]
  tables := k.tables.trans h.tables
  records := k.records.trans h.records
  jackets := k.jackets.trans h.jackets
  verification := k.verification.trans h.verification
  line := k.line.trans h.line
  replied r hr := k.replied r (h.replied r hr)

theorem OnlyPlaces.jacket {c d : Controller} (h : OnlyPlaces c d) (n : JacketNo) : d.jacket n = c.jacket n := by
  rw [Controller.jacket, h.jackets, Controller.jacket]

/-- A frame that stands in the queue still stands there. -/
theorem OnlyPlaces.stays {c d : Controller} (h : OnlyPlaces c d) {e : QueueEntry} (he : e ∈ c.ring.queue) : e ∈ d.ring.queue :=
  h.queue.subset he

theorem setMark_onlyPlaces (c : Controller) (m : InfeedMark) : OnlyPlaces c (c.setMark m) :=
  ⟨List.prefix_rfl, rfl, rfl, rfl, rfl, rfl, rfl, fun _ => id⟩

theorem updNotice_onlyPlaces (c : Controller) (cls : NoticeClass) (f : Notice → Notice) : OnlyPlaces c (c.updNotice cls f) :=
  ⟨List.prefix_rfl, rfl, rfl, rfl, rfl, rfl, rfl, fun _ => id⟩

theorem enqueue_onlyPlaces (c : Controller) (b : Body) (o : Owner) (k m : Bool) : OnlyPlaces c (c.enqueue b o k m) :=
  ⟨List.prefix_append _ _, rfl, rfl, rfl, rfl, rfl, rfl,
    fun _ => Or.imp id fun ⟨e, he, hb⟩ => ⟨e, List.mem_append_left _ he, hb⟩⟩

/-! ### The infeed mark (R52 to R54) -/

theorem offerInfeed_onlyPlaces (c : Controller) (o : InfeedOrder) (g : Origin) : OnlyPlaces c (c.offerInfeed o g) := by
  unfold Controller.offerInfeed
  split
  · exact (enqueue_onlyPlaces _ _ _ _ _).trans (setMark_onlyPlaces _ _)
  · exact setMark_onlyPlaces _ _

theorem flipFrame_onlyPlaces (c : Controller) (freed : Bool) (v : MarkValue) : OnlyPlaces c (c.flipFrame freed v) := by
  have make : OnlyPlaces c (if freed then c.setMark { c.mark with owed := some { order := v.order, origin := .fresh } }
      else c.offerInfeed v.order .fresh) := by
    split
    · exact setMark_onlyPlaces _ _
    · exact offerInfeed_onlyPlaces _ _ _
  unfold Controller.flipFrame
  dsimp only
  split
  · exact make
  · split
    · exact .refl
    · split
      · exact setMark_onlyPlaces _ _
      · exact make

theorem markRaise_onlyPlaces (c : Controller) (cls : NoticeClass) (subject cause : Nat) (test : Bool) :
    OnlyPlaces c (c.markRaise cls subject cause test) := updNotice_onlyPlaces _ _ _

theorem putNotice_onlyPlaces (c : Controller) (cls : NoticeClass) : OnlyPlaces c (c.putNotice cls) := by
  unfold Controller.putNotice
  exact (enqueue_onlyPlaces _ _ _ _ _).trans (updNotice_onlyPlaces _ _ _)

theorem raiseInfeedHeld_onlyPlaces (c : Controller) (cause : Nat) : OnlyPlaces c (c.raiseInfeedHeld cause) := by
  unfold Controller.raiseInfeedHeld
  dsimp only
  split
  · exact ((markRaise_onlyPlaces _ _ _ _ _).trans (putNotice_onlyPlaces _ _)).trans (setMark_onlyPlaces _ _)
  · exact markRaise_onlyPlaces _ _ _ _ _

theorem judge_onlyPlaces (freed : Bool) (c : Controller) : OnlyPlaces c (c.judge freed) := by
  unfold Controller.judge
  dsimp only
  split
  · exact setMark_onlyPlaces _ _
  · have flipped := (setMark_onlyPlaces c { c.mark with reasons := c.infeedReasons, value := c.infeedReasons.wanted }).trans
      (flipFrame_onlyPlaces _ freed c.infeedReasons.wanted)
    split
    · exact flipped.trans (raiseInfeedHeld_onlyPlaces _ _)
    · exact flipped

theorem offerOwedInfeed_onlyPlaces (c : Controller) (o : InfeedOrder) : OnlyPlaces c (c.offerOwedInfeed o) := by
  unfold Controller.offerOwedInfeed
  split
  · split
    · exact .refl
    · split
      · exact setMark_onlyPlaces _ _
      · split
        · exact ((enqueue_onlyPlaces _ _ _ _ _).trans (setMark_onlyPlaces _ _)).trans (judge_onlyPlaces _ _)
        · exact .refl
  · exact .refl

/-! ### Notices (R178, R179) -/

theorem offerNotice_onlyPlaces (c : Controller) (cls : NoticeClass) : OnlyPlaces c (c.offerNotice cls) := by
  unfold Controller.offerNotice
  split
  · exact (putNotice_onlyPlaces _ _).trans (judge_onlyPlaces _ _)
  · exact .refl

theorem offerNotices_onlyPlaces (c : Controller) : OnlyPlaces c c.offerNotices := by
  unfold Controller.offerNotices
  generalize noticeClasses = l
  induction l generalizing c with
  | nil => exact .refl
  | cons cls l ih => exact (offerNotice_onlyPlaces c cls).trans (ih _)

theorem raise_onlyPlaces (c : Controller) (cls : NoticeClass) (subject cause : Nat) : OnlyPlaces c (c.raise cls subject cause) :=
  (markRaise_onlyPlaces _ _ _ _ _).trans (offerNotice_onlyPlaces _ _)

theorem notice_markRaise (c : Controller) (cls : NoticeClass) (subject cause : Nat) (test : Bool) :
    (c.markRaise cls subject cause test).notice cls =
      { c.notice cls with
        pending := true, count := min 255 ((c.notice cls).count + 1), subject := subject, cause := cause, testMark := test } := by
  rw [Controller.markRaise, notice_updNotice, if_pos rfl]

/-- A notice raised is pending with its detail, or the NOTICE that carries the detail stands in the queue (R178, R179). -/
theorem raise_reported (c : Controller) (cls : NoticeClass) (subject cause : Nat) :
    (c.raise cls subject cause).Reported cls subject cause := by
  have marked := notice_markRaise c cls subject cause false
  unfold Controller.raise Controller.offerNotice
  split
  · refine .inr ⟨_, (judge_onlyPlaces _ _).stays (List.mem_append_right _ (List.mem_singleton_self _)),
      min 255 ((c.notice cls).count + 1), ?_⟩
    simp [Controller.noticeBody, marked]
  · exact .inl (by simp [marked])

/-! ### The reply (R181) -/

/-- A reply placed empties the buffer, and the reply stands in the queue (R181). -/
theorem placeReply_onlyPlaces {c : Controller} {r : Reply} (h : c.responder.buffer = .holding r) :
    OnlyPlaces c ((c.enqueue (.reply r) .reply).setBuffer .empty) := by
  refine ⟨List.prefix_append _ _, rfl, rfl, rfl, rfl, rfl, rfl, fun r' => ?_⟩
  rintro (held | ⟨e, he, hb⟩)
  · obtain rfl : r = r' := ReplyBuffer.holding.inj (h.symm.trans held)
    exact .inr ⟨_, List.mem_append_right _ (List.mem_singleton_self _), rfl⟩
  · exact .inr ⟨e, List.mem_append_left _ he, hb⟩

theorem offerReply_onlyPlaces (c : Controller) : OnlyPlaces c c.offerReply := by
  unfold Controller.offerReply
  split
  · next r hr =>
    split
    · exact (placeReply_onlyPlaces hr).trans (judge_onlyPlaces _ _)
    · exact .refl
  · exact .refl

end Sys2Proof.Machine
end

section
/-! SUPPORT. What a frame that is heard comes to: a report is forwarded and handed to its source's station (R2, R5); a management request is
forwarded with its taken mark, acted on and answered (R4, R181). -/
namespace Sys2Proof.Machine

theorem receiveFrame_report {c : Controller} {h : Header} {kind : Byte} {p : List Byte} (hears : c.Hears h p.length)
    (report : kind.toNat ≠ manageKind) :
    c.receiveFrame { header := h, kind, payload := p } =
      (c.placeForward ({ header := h, kind, payload := p } : Frame).wire).classify h.source.toNat kind.toNat p := by
  obtain ⟨inService, short, notOwn, room⟩ := hears
  simp [Controller.receiveFrame, inService, Nat.not_lt.mpr short, Controller.accept, notOwn, Controller.passOn, room,
    Controller.isRequest, report]

theorem receiveFrame_request {c : Controller} {h : Header} {p : List Byte} (takes : c.Takes h p.length) :
    c.receiveFrame (manageFrame h p) = (c.taken (manageFrame h p).markTaken.wire).request h.source.toNat p := by
  obtain ⟨⟨inService, short, notOwn, room⟩, destined, free⟩ := takes
  have request : c.isRequest (manageFrame h p) = true := by
    simp [Controller.isRequest, manageFrame, destined, manageKind]
  have received : c.receiveFrame (manageFrame h p) = c.passOn (manageFrame h p) := by
    simp [Controller.receiveFrame, inService, manageFrame, Nat.not_lt.mpr short, Controller.accept, notOwn]
  rw [received]
  simp only [Controller.passOn, room, request, free, if_true, Bool.true_eq_false, if_false]
  rfl

/-- An answered request leaves the part its action left, with its reply in the buffer, and then only places frames (R181). -/
theorem request_onlyPlaces {c : Controller} {kind : Byte} {fields : List Byte} {a : Answer}
    (answer : c.judgeRequest (kind :: fields) = a) (source : Nat) :
    OnlyPlaces (a.part.setBuffer (.holding { destination := source, kind := kind.toNat, reason := a.reason, data := a.data }))
      (c.request source (kind :: fields)) := by
  unfold Controller.request Controller.reply
  rw [answer]
  dsimp only
  split
  · exact (offerReply_onlyPlaces _).trans (offerNotices_onlyPlaces _)
  · exact offerReply_onlyPlaces _

theorem request_replied {c : Controller} {kind : Byte} {fields : List Byte} {a : Answer}
    (answer : c.judgeRequest (kind :: fields) = a) (source : Nat) :
    (c.request source (kind :: fields)).Replied { destination := source, kind := kind.toNat, reason := a.reason, data := a.data } :=
  (request_onlyPlaces answer source).replied _ (.inl rfl)

/-- A request whose action leaves the part as it was taken only answers. -/
theorem request_onlyAnswers {c : Controller} {frame : List Byte} {kind : Byte} {fields : List Byte} {reason : Option Reason}
    {data : List Byte} (answer : (c.taken frame).judgeRequest (kind :: fields) = { part := c.taken frame, reason, data })
    (source : Nat) : c.OnlyAnswers ((c.taken frame).request source (kind :: fields)) frame := by
  obtain ⟨-, ring, tables, records, jackets, verification, line, -⟩ := request_onlyPlaces answer source
  refine ⟨?_, ?_, ?_, ?_, ?_, tables, records, jackets, verification, line⟩ <;> rw [ring] <;> rfl

/-! ### Commands of a jacket (R183) -/

/-- The byte that carries a jacket number reads as that jacket. -/
theorem onJacket_number (f : JacketNo → Except Reason Controller) (n : JacketNo) : onJacket f (BitVec.ofNat 8 n.val) = f n := by
  have read : (BitVec.ofNat 8 n.val).toNat = n.val := by
    rw [BitVec.toNat_ofNat]
    omega
  simp [onJacket, read, jacketOfNumber]

theorem judgeRequest_jacketDisable (c : Controller) (n : JacketNo) :
    c.judgeRequest [3, 8, BitVec.ofNat 8 n.val] = c.commandAnswer 8 (c.disableJacket n) := by
  rw [← onJacket_number c.disableJacket n]
  rfl

theorem judgeRequest_jacketDisable_of_free {c : Controller} {n : JacketNo}
    (free : (c.jacket n).state = .idle ∨ (c.jacket n).state.isFault = true) :
    c.judgeRequest [3, 8, BitVec.ofNat 8 n.val] =
      { part := c.updJacket n (Jacket.emptied .disabled), reason := none, data := [8] } := by
  rw [judgeRequest_jacketDisable, Controller.disableJacket, if_pos free]
  rfl

theorem judgeRequest_jacketDisable_of_busy {c : Controller} {n : JacketNo}
    (busy : ¬((c.jacket n).state = .idle ∨ (c.jacket n).state.isFault = true)) :
    c.judgeRequest [3, 8, BitVec.ofNat 8 n.val] = { part := c, reason := some .busy, data := [8] } := by
  rw [judgeRequest_jacketDisable, Controller.disableJacket, if_neg busy]
  rfl

theorem exec_jacketDisable {s : State} {h : Header} {number : Byte} (takes : s.part.Takes h 3) :
    exec (.jacketDisable h [number]) s =
      .next (s.withPart ((s.part.taken (manageFrame h [3, 8, number]).markTaken.wire).request h.source.toNat [3, 8, number])) := by
  rw [← receiveFrame_request takes]
  rfl

/-- A DISABLED jacket is eligible for no record (R77), and its map entry may be written (R33). -/
theorem outOfService_of_disabled {c : Controller} {n : JacketNo} (disabled : (c.jacket n).state = .disabled) :
    (∀ r : Record, c.eligible n r = false) ∧ ∀ size, c.roleBusy (.jacket n size) = false := by
  simp [Controller.eligible, Controller.roleBusy, disabled]

/-- Settles O41: an accepted JACKET_DISABLE empties the jacket, and its answer only places frames; a refused one leaves the part as it was
taken. -/
theorem jacketDisableTakesOut : Obligations.JacketDisableTakesOut := by
  intro s h n takes
  let frame := (manageFrame h [3, 8, BitVec.ofNat 8 n.val]).markTaken.wire
  refine ⟨fun free => ⟨_, exec_jacketDisable takes, ?_⟩, fun busy => ⟨_, exec_jacketDisable takes, ?_⟩⟩
  · have answer := judgeRequest_jacketDisable_of_free (c := s.part.taken frame) free
    have placed := request_onlyPlaces answer h.source.toNat
    have jackets (m : JacketNo) := (placed.jacket m).trans (jacket_updJacket s.part n m (Jacket.emptied .disabled))
    have emptied := (jackets n).trans (if_pos rfl)
    obtain ⟨noneEligible, notBusy⟩ := outOfService_of_disabled (congrArg Jacket.state emptied)
    exact ⟨emptied, fun m other => (jackets m).trans (if_neg other), placed.verification, noneEligible, notBusy,
      placed.tables, placed.records, request_replied answer _⟩
  · have answer := judgeRequest_jacketDisable_of_busy (c := s.part.taken frame) busy
    exact ⟨request_onlyAnswers answer _, request_replied answer _⟩

end Sys2Proof.Machine
end

section
/-! SUPPORT. What the owed arbitration and the withdrawals leave of the jackets: every field but the owed commands, and of the commands each one
that stands, in the queue or owed (R8, R94). -/
namespace Sys2Proof.Machine

/-- The jackets are the same but for their owed commands (R94). -/
def SameButOwed (c d : Controller) : Prop :=
  ∀ m : JacketNo, d.jacket m = { c.jacket m with owedCommand := (d.jacket m).owedCommand }

theorem SameButOwed.of_jackets {c d : Controller} (h : d.jackets = c.jackets) : SameButOwed c d := fun m => by
  rw [Controller.jacket, h, Controller.jacket]

theorem SameButOwed.trans {a b c : Controller} (h : SameButOwed a b) (k : SameButOwed b c) : SameButOwed a c := fun m => by
  rw [k m, h m]

theorem updOwed_sameButOwed (c : Controller) (n : JacketNo) (f : Jacket → Option Command) :
    SameButOwed c (c.updJacket n fun j => { j with owedCommand := f j }) := fun m => by
  rw [jacket_updJacket]
  split
  · next same => rw [same]
  · rfl

/-- The jackets are the same but for their owed commands, and a command of jacket n that has been made still is. -/
structure KeepsCommand (n : JacketNo) (k : Command) (c d : Controller) : Prop where
  jackets : SameButOwed c d
  commanded : c.Commanded n k → d.Commanded n k

variable {n : JacketNo} {k : Command}

/-- It suffices that the jackets are the same and that the frames of the command stay in the queue. -/
theorem KeepsCommand.of_queue {c d : Controller} (jackets : d.jackets = c.jackets)
    (stays : ∀ e ∈ c.ring.queue, e.owner = .jacket n → e.body = .command n k → e ∈ d.ring.queue) : KeepsCommand n k c d where
  jackets := .of_jackets jackets
  commanded := by
    rintro (owed | ⟨e, he, owner, body⟩)
    · exact .inl (by rwa [Controller.jacket, jackets])
    · exact .inr ⟨e, stays e he owner body, owner, body⟩

theorem KeepsCommand.refl {c : Controller} : KeepsCommand n k c c := .of_queue rfl fun _ he _ _ => he

theorem KeepsCommand.trans {a b c : Controller} (h : KeepsCommand n k a b) (g : KeepsCommand n k b c) : KeepsCommand n k a c :=
  ⟨h.jackets.trans g.jackets, fun made => g.commanded (h.commanded made)⟩

theorem OnlyPlaces.keepsCommand {c d : Controller} (h : OnlyPlaces c d) : KeepsCommand n k c d :=
  .of_queue h.jackets fun _ he _ _ => h.stays he

theorem foldl_keepsCommand {α : Type} {f : Controller → α → Controller} (h : ∀ c a, KeepsCommand n k c (f c a)) (l : List α) :
    ∀ c, KeepsCommand n k c (l.foldl f c) := by
  induction l with
  | nil => exact fun _ => .refl
  | cons a l ih => exact fun c => (h c a).trans (ih _)

/-! ### Commands offered (R94) -/

theorem offerCommand_sameButOwed (c : Controller) (m : JacketNo) (x : Command) : SameButOwed c (c.offerCommand m x) := by
  unfold Controller.offerCommand
  split
  · exact (updOwed_sameButOwed (c.enqueue _ _) m fun _ => none).trans (.of_jackets (judge_onlyPlaces _ _).jackets)
  · exact updOwed_sameButOwed c m fun _ => some x

/-- A command offered has been made: it is placed, or owed (R94). -/
theorem offerCommand_commanded (c : Controller) (m : JacketNo) (x : Command) : (c.offerCommand m x).Commanded m x := by
  unfold Controller.offerCommand
  split
  · exact .inr ⟨_, (judge_onlyPlaces _ _).stays (List.mem_append_right _ (List.mem_singleton_self _)), rfl, rfl⟩
  · exact .inl (by rw [jacket_updJacket, if_pos rfl])

theorem offerCommand_stays {c : Controller} {e : QueueEntry} (he : e ∈ c.ring.queue) (m : JacketNo) (x : Command) :
    e ∈ (c.offerCommand m x).ring.queue := by
  unfold Controller.offerCommand
  split
  · exact (judge_onlyPlaces _ _).stays (List.mem_append_left _ he)
  · exact he

theorem offerCommand_otherJacket (c : Controller) {m : JacketNo} (x : Command) (other : n ≠ m) :
    (c.offerCommand m x).jacket n = c.jacket n := by
  unfold Controller.offerCommand
  split
  · rw [(judge_onlyPlaces _ _).jacket, jacket_updJacket, if_neg other]
    rfl
  · rw [jacket_updJacket, if_neg other]

/-- The offer of an owed command again loses no command: the owed one is placed or stays owed (R8). -/
theorem offerOwedCommand_keepsCommand (urgent : Bool) (c : Controller) (m : JacketNo) :
    KeepsCommand n k c (c.offerOwedCommand urgent m) := by
  unfold Controller.offerOwedCommand
  split
  · next x owes =>
    split
    · refine ⟨offerCommand_sameButOwed c m x, ?_⟩
      rintro (owed | ⟨e, he, owner, body⟩)
      · by_cases same : n = m
        · subst same
          obtain rfl : x = k := Option.some.inj (owes.symm.trans owed)
          exact offerCommand_commanded c n x
        · exact .inl ((congrArg Jacket.owedCommand (offerCommand_otherJacket c x same)).trans owed)
      · exact .inr ⟨e, offerCommand_stays he m x, owner, body⟩
    · exact .refl
  · exact .refl

/-! ### Records: their frames and their removal (R58, R59, R157) -/

theorem offerOrders_keepsCommand (slot : Nat) (serial : Serial) (l : List Order) (c : Controller) :
    KeepsCommand n k c (c.offerOrders slot serial l) := by
  induction l generalizing c with
  | nil => exact .refl
  | cons o rest ih =>
    unfold Controller.offerOrders
    split
    · have updated : KeepsCommand n k c (c.updRecord slot fun r => { r with owedOrders := rest }) :=
        .of_queue rfl fun _ he _ _ => he
      exact ((updated.trans (enqueue_onlyPlaces _ _ _ _ _).keepsCommand).trans (judge_onlyPlaces _ _).keepsCommand).trans (ih _)
    · exact .refl

theorem putResult_keepsCommand (c : Controller) (slot : Nat) (serial : Serial) (r : LastResult) :
    KeepsCommand n k c (c.putResult slot serial r) := by
  have placed : KeepsCommand n k c ((c.enqueue (.testResult serial r) (.record slot)).updRecord slot
      fun r => { r with resultOwed := false }) :=
    .of_queue rfl fun _ he _ _ => List.mem_append_left _ he
  exact placed.trans (judge_onlyPlaces _ _).keepsCommand

/-- A withdrawal keeps the commands its test does not ask for, when the arbitration it runs does. -/
theorem withdrawLoop_keepsCommand {arb : Controller → Controller} (keeps : ∀ c, KeepsCommand n k c (arb c)) {p : QueueEntry → Bool}
    (spares : ∀ e : QueueEntry, e.owner = .jacket n → e.body = .command n k → p e = false) (fuel : Nat) (c : Controller) :
    KeepsCommand n k c (Controller.withdrawLoop arb p fuel c) := by
  induction fuel generalizing c with
  | zero => exact .refl
  | succ fuel ih =>
    unfold Controller.withdrawLoop
    split
    · have erased : KeepsCommand n k c (c.setQueue (c.ring.queue.eraseP p)) :=
        .of_queue rfl fun e he owner body => (List.mem_eraseP_of_neg (by simp [spares e owner body])).mpr he
      exact ((erased.trans (judge_onlyPlaces _ _).keepsCommand).trans (keeps _)).trans (ih _)
    · exact .refl

theorem finishDrain_keepsCommand (c : Controller) : KeepsCommand n k c c.finishDrain := by
  unfold Controller.finishDrain
  split
  · have stopped : KeepsCommand n k c (c.setLineState .stopped) := .of_queue rfl fun _ he _ _ => he
    exact (stopped.trans (raise_onlyPlaces _ _ _ _).keepsCommand).trans (judge_onlyPlaces _ _).keepsCommand
  · exact .refl

theorem removeWith_keepsCommand {arb : Controller → Controller} (keeps : ∀ c, KeepsCommand n k c (arb c)) (slot : Nat)
    (c : Controller) : KeepsCommand n k c (Controller.removeWith arb slot c) := by
  unfold Controller.removeWith Controller.withdrawWith
  dsimp only
  refine .trans ?_ (finishDrain_keepsCommand _)
  refine .trans ?_ (judge_onlyPlaces _ _).keepsCommand
  refine .trans ?_ (withdrawLoop_keepsCommand keeps (fun e owner _ => by simp [QueueEntry.isOrderOf, owner]) _ _)
  refine .of_queue rfl fun e he owner _ => List.mem_map.mpr ⟨e, he, ?_⟩
  simp [QueueEntry.disownResult, owner]

theorem offerRecordWith_keepsCommand {arb : Controller → Controller} (keeps : ∀ c, KeepsCommand n k c (arb c)) (c : Controller)
    (slot : Nat) : KeepsCommand n k c (Controller.offerRecordWith arb c slot) := by
  unfold Controller.offerRecordWith
  split
  · exact .refl
  · split
    · split
      · exact .refl
      · split
        · dsimp only
          split
          · exact (putResult_keepsCommand _ _ _ _).trans (removeWith_keepsCommand keeps _ _)
          · exact (putResult_keepsCommand _ _ _ _).trans (offerOrders_keepsCommand _ _ _ _)
        · exact .refl
    · exact offerOrders_keepsCommand _ _ _ _

/-! ### The owed arbitration and the withdrawals (R8) -/

theorem arbitrateWith_keepsCommand {inner : Controller → Controller} (keeps : ∀ c, KeepsCommand n k c (inner c)) (c : Controller) :
    KeepsCommand n k c (Controller.arbitrateWith inner c) := by
  unfold Controller.arbitrateWith
  dsimp only
  refine .trans ?_ (offerNotices_onlyPlaces _).keepsCommand
  refine .trans ?_ (offerReply_onlyPlaces _).keepsCommand
  refine .trans ?_ (offerOwedInfeed_onlyPlaces _ _).keepsCommand
  refine .trans ?_ (foldl_keepsCommand (offerOwedCommand_keepsCommand false) _ _)
  refine .trans ?_ (foldl_keepsCommand (offerRecordWith_keepsCommand keeps) _ _)
  refine .trans ?_ (offerOwedInfeed_onlyPlaces _ _).keepsCommand
  exact foldl_keepsCommand (offerOwedCommand_keepsCommand true) _ _

theorem arbitrate_keepsCommand (c : Controller) : KeepsCommand n k c c.arbitrate := by
  unfold Controller.arbitrate
  generalize c.records.length + 1 = depth
  induction depth generalizing c with
  | zero => exact .refl
  | succ depth ih => exact arbitrateWith_keepsCommand ih c

theorem withdraw_keepsCommand {p : QueueEntry → Bool}
    (spares : ∀ e : QueueEntry, e.owner = .jacket n → e.body = .command n k → p e = false) (c : Controller) :
    KeepsCommand n k c (c.withdraw p) := withdrawLoop_keepsCommand arbitrate_keepsCommand spares _ _

/-- A command that is not among those that stop standing has still been made (R94). -/
theorem dropCommands_keepsCommand (c : Controller) {p : Command → Bool} (spared : p k = false) :
    KeepsCommand n k c (c.dropCommands n p) := by
  have filtered : KeepsCommand n k c (c.updJacket n fun j => { j with owedCommand := j.owedCommand.filter fun k => !p k }) := by
    refine ⟨updOwed_sameButOwed c n _, Or.imp (fun owed => ?_) id⟩
    simp [jacket_updJacket, owed, spared]
  exact filtered.trans (withdraw_keepsCommand (fun e _ body => by simp [QueueEntry.isCommandOf, body, spared]) _)

/-! ### A VENT made, and an early end (R94, R111) -/

theorem makeVent_sameButOwed (c : Controller) (n : JacketNo) : SameButOwed c (c.makeVent n) :=
  (offerCommand_sameButOwed c n .vent).trans (dropCommands_keepsCommand (k := .vent) _ rfl).jackets

theorem makeVent_commanded (c : Controller) (n : JacketNo) : (c.makeVent n).Commanded n .vent :=
  (dropCommands_keepsCommand _ rfl).commanded (offerCommand_commanded c n .vent)

/-- A jacket that vents into RECOVERING has the context it had, but for the state, its times begun afresh and the owed command (R111). -/
theorem ventInto_jacket (c : Controller) (n : JacketNo) (reason : RecoverReason) :
    (c.ventInto n reason).jacket n =
      { c.jacket n with
        state := .recovering reason, elapsed := 0, acc := .clear, owedCommand := ((c.makeVent n).jacket n).owedCommand } := by
  rw [Controller.ventInto, jacket_updJacket, if_pos rfl, makeVent_sameButOwed c n n]

theorem ventInto_commanded (c : Controller) (n : JacketNo) (reason : RecoverReason) : (c.ventInto n reason).Commanded n .vent := by
  refine (makeVent_commanded c n).imp (fun owed => ?_) id
  rw [Controller.ventInto, jacket_updJacket, if_pos rfl]
  exact owed

/-- An early end records its cause and keeps the readings and the program's place (R111). -/
theorem earlyEnd_jacket (c : Controller) (n : JacketNo) (cause : EarlyCause) :
    ∃ owed : Option Command, (c.earlyEnd n cause).jacket n =
      { c.jacket n with
        state := .recovering .early, earlyEnd := some cause, elapsed := 0, acc := .clear, owedCommand := owed } := by
  have left := ventInto_jacket (c.updJacket n fun j => { j with earlyEnd := some cause }) n .early
  rw [jacket_updJacket, if_pos rfl] at left
  exact ⟨_, left⟩

theorem earlyEnd_commanded (c : Controller) (n : JacketNo) (cause : EarlyCause) : (c.earlyEnd n cause).Commanded n .vent :=
  ventInto_commanded _ n .early

end Sys2Proof.Machine
end

section
/-! SUPPORT. What a JACKET_SAMPLE comes to (R99, R110, R112). -/
namespace Sys2Proof.Machine

theorem classify_jacketSample {c : Controller} {n : JacketNo} {source : Nat} {p : List Byte} {x : Sample} {size : SizeClass}
    (role : c.roleAt source = .jacket n size) (read : readSample p = some x) : c.classify source 5 p = c.takeSample n x := by
  simp [Controller.classify, role, Controller.jacketReport, read]

theorem exec_jacketSample {s : State} {h : Header} {n : JacketNo} {p : List Byte} {x : Sample} {size : SizeClass}
    (hears : s.part.Hears h p.length) (role : s.part.roleAt h.source.toNat = .jacket n size) (read : readSample p = some x) :
    exec (.jacketSample h p) s =
      .next (s.withPart ((s.part.placeForward ({ header := h, kind := 5, payload := p } : Frame).wire).takeSample n x)) := by
  have received := (receiveFrame_report (kind := 5) hears (by decide)).trans (classify_jacketSample role read)
  rw [← received]
  rfl

/-- A sample above the limit ends the program of a RUNNING jacket early (R110). -/
theorem takeSample_above {c : Controller} {n : JacketNo} {x : Sample} {b : BlockKind} (running : (c.jacket n).state = .running b)
    (above : (c.servedSpec n).pressureLimit < x.pressure) :
    c.takeSample n x =
      ((c.updJacket n fun j => { j with sampleAge := 0 }).earlyEnd n .overpressure).raise .overpressure n.val 0 := by
  simp only [Controller.takeSample, running, if_pos above]

/-- In RECOVERING a sample above the zero threshold only refreshes the sample age (R112). -/
theorem takeSample_recovering {c : Controller} {n : JacketNo} {x : Sample} {reason : RecoverReason}
    (recovering : (c.jacket n).state = .recovering reason) (high : c.line.items.zeroThreshold < x.pressure) :
    c.takeSample n x = c.updJacket n fun j => { j with sampleAge := 0 } := by
  simp only [Controller.takeSample, recovering, if_neg (Nat.not_le.mpr high)]

/-- Settles O22: above the limit the jacket is left as the early end leaves it, since a notice raised only places frames; in RECOVERING the
limit is not asked. -/
theorem overpressureEndsProgram : Obligations.OverpressureEndsProgram := by
  intro s h p x n size hears role read
  let heard := s.part.placeForward ({ header := h, kind := 5, payload := p } : Frame).wire
  refine ⟨fun b running above => ?_, fun reason recovering high => ?_⟩
  · let sampled := heard.updJacket n fun j => { j with sampleAge := 0 }
    let ended := sampled.earlyEnd n .overpressure
    have raised := raise_onlyPlaces ended .overpressure n.val 0
    obtain ⟨owed, left⟩ := earlyEnd_jacket sampled n .overpressure
    have jacket := (raised.jacket n).trans left
    rw [jacket_updJacket, if_pos rfl] at jacket
    refine ⟨ended.raise .overpressure n.val 0, ?_, ?_⟩
    · rw [exec_jacketSample hears role read, takeSample_above (c := heard) running above]
    · rw [jacket]
      exact ⟨rfl, rfl, rfl, rfl, rfl, rfl, rfl, rfl, rfl, rfl, rfl, rfl, rfl,
        raised.keepsCommand.commanded (earlyEnd_commanded _ _ _), raise_reported _ _ _ _⟩
  · rw [exec_jacketSample hears role read, takeSample_recovering (c := heard) recovering high]

end Sys2Proof.Machine
end

section
/-! SUPPORT. The expansion arithmetic: the comparisons of the stages (R124, R125, R147, R148), the total, the ratio and the elastic
expansion (R126 to R128), the judgment of the figures (R129, R131) and the cases of an evaluation's result (R129, R130). -/
namespace Sys2Proof.Machine

/-! ### The comparisons of the stages -/

theorem lt_magnitude_iff {k a b : Nat} : k < magnitude a b ↔ b + k < a ∨ a + k < b := by
  unfold magnitude
  omega

theorem thermalFails_iff {tz tv limit : Nat} : thermalFails tz tv limit = true ↔ tz + limit < tv ∨ tv + limit < tz := by
  rw [thermalFails, decide_eq_true_iff, lt_magnitude_iff, or_comm]

theorem windowFails_iff {e : TypeEntry} {pRead : Nat} :
    windowFails e pRead = true ↔ e.ptest + e.allowance < pRead ∨ pRead + e.allowance < e.ptest := by
  rw [windowFails, decide_eq_true_iff, lt_magnitude_iff]

theorem RefPart.judge_eq (p : RefPart) (t : Nat) :
    p.judge t = if t ≤ p.expected + p.tolerance ∧ p.expected ≤ t + p.tolerance then .inTolerance else .outOfTolerance := by
  have within : magnitude t p.expected ≤ p.tolerance ↔ t ≤ p.expected + p.tolerance ∧ p.expected ≤ t + p.tolerance := by
    rw [← not_lt, lt_magnitude_iff]
    omega
  simp only [RefPart.judge, within]

/-! ### The total expansion (R126) -/

theorem allowance_eq (e : TypeEntry) : e.allowance = (e.ptest * e.window + 500) / 1000 := rfl

theorem normalised_eq (e : TypeEntry) (tRaw pRead : Nat) :
    normalised e tRaw pRead = min 65535 ((tRaw * e.ptest + pRead / 2) / pRead) := rfl

/-- A window of at most 50 permille allows at most a twentieth of Ptest, rounded. -/
theorem allowance_le {e : TypeEntry} (window : e.window ≤ 50) : e.allowance ≤ (e.ptest * 50 + 500) / 1000 := by
  rw [allowance_eq]
  exact Nat.div_le_div_right (Nat.add_le_add_right (Nat.mul_le_mul_left _ window) _)

/-- A quotient rounded half up is 0 exactly below half its divisor. -/
theorem normalised_eq_zero_iff (e : TypeEntry) (tRaw : Nat) {pRead : Nat} (positive : 0 < pRead) :
    normalised e tRaw pRead = 0 ↔ tRaw * e.ptest + pRead / 2 < pRead := by
  have quotient : (tRaw * e.ptest + pRead / 2) / pRead = 0 ↔ tRaw * e.ptest + pRead / 2 < pRead := by
    simp [Nat.div_eq_zero_iff, positive.ne']
  rw [normalised_eq, ← quotient]
  omega

/-- Within the window P_read is neither small nor above twice Ptest, so a T_raw of 1 already rounds to a T of 1 or more. -/
theorem within_window {e : TypeEntry} {pRead : Nat} (ptest : 1000 ≤ e.ptest) (window : e.window ≤ 50)
    (inside : windowFails e pRead = false) : 950 ≤ pRead ∧ ∀ tRaw, normalised e tRaw pRead = 0 ↔ tRaw = 0 := by
  have near : ¬ (e.ptest + e.allowance < pRead ∨ pRead + e.allowance < e.ptest) := by
    rw [← windowFails_iff, inside]
    decide
  have allowed := allowance_le window
  refine ⟨by omega, fun tRaw => ?_⟩
  rw [normalised_eq_zero_iff e tRaw (by omega)]
  cases tRaw with
  | zero => omega
  | succ k =>
    have atLeast : e.ptest ≤ (k + 1) * e.ptest := Nat.le_mul_of_pos_left _ k.succ_pos
    omega

/-! ### The ratio and the elastic expansion (R127, R128) -/

theorem expansionRatio_eq (ePerm t : Nat) : expansionRatio ePerm t = min 1000 ((ePerm * 1000 + t / 2) / t) := rfl

theorem expansionRatio_le (ePerm t : Nat) : expansionRatio ePerm t ≤ 1000 := Nat.min_le_left _ _

/-- The quotient of R127 is that of R64, so it passes 1,000 only when E_perm passes T. -/
theorem lt_of_ratio_above {ePerm t : Nat} (positive : 1 ≤ t) (above : 1000 < (ePerm * 1000 + t / 2) / t) : t < ePerm := by
  by_contra atMost
  have bounded := massPermille_le_of_le positive (Nat.le_of_not_lt atMost)
  rw [massPermille_eq] at bounded
  omega

theorem expansionRatio_of_lt {ePerm t : Nat} (positive : 1 ≤ t) (h : t < ePerm) : expansionRatio ePerm t = 1000 := by
  have reaches : 1000 ≤ (ePerm * 1000 + t / 2) / t := (Nat.le_div_iff_mul_le positive).mpr (by omega)
  rw [expansionRatio_eq, Nat.min_eq_left reaches]

/-! ### The judgment of the figures (cases 8 to 10 of R129, R131) -/

section
variable {e : TypeEntry} {t ratio elastic : Nat}

theorem judgeFigures_reference {p : RefPart} (h : e.reference = some p) :
    judgeFigures e t ratio elastic = .reference (p.judge t) := by
  simp only [judgeFigures, h]

theorem judgeFigures_permanent (ordinary : e.reference = none) (above : e.ratioLimit < ratio) :
    judgeFigures e t ratio elastic = .fail .permanent := by
  simp only [judgeFigures, ordinary, if_pos above]

theorem judgeFigures_elastic (ordinary : e.reference = none) (within : ratio ≤ e.ratioLimit) {limit : Nat}
    (limited : e.ree = some limit) (above : limit < elastic) : judgeFigures e t ratio elastic = .fail .elastic := by
  simp only [judgeFigures, ordinary, if_neg (Nat.not_lt.mpr within), limited, if_pos above]

theorem judgeFigures_pass (ordinary : e.reference = none) (within : ratio ≤ e.ratioLimit)
    (free : ∀ limit, e.ree = some limit → elastic ≤ limit) : judgeFigures e t ratio elastic = .pass := by
  simp only [judgeFigures, ordinary, if_neg (Nat.not_lt.mpr within)]
  cases limited : e.ree with
  | none => rfl
  | some limit => exact if_neg (Nat.not_lt.mpr (free limit limited))

/-- A ratio within the limit leaves only the elastic limit to judge. -/
theorem judgeFigures_within (ordinary : e.reference = none) (within : ratio ≤ e.ratioLimit) :
    judgeFigures e t ratio elastic = .fail .elastic ∨ judgeFigures e t ratio elastic = .pass := by
  by_cases free : ∀ limit, e.ree = some limit → elastic ≤ limit
  · exact .inr (judgeFigures_pass ordinary within free)
  · push Not at free
    obtain ⟨limit, limited, above⟩ := free
    exact .inl (judgeFigures_elastic ordinary within limited above)

theorem judgeFigures_ne_permanent (ordinary : e.reference = none) (within : ratio ≤ e.ratioLimit) :
    judgeFigures e t ratio elastic ≠ .fail .permanent := by
  obtain h | h := judgeFigures_within (t := t) (elastic := elastic) ordinary within <;> simp [h]

/-- The figures of a program that reached its end are judged, never INVALID. -/
theorem judgeFigures_ne_invalid (k : InvalidCause) : judgeFigures e t ratio elastic ≠ .invalid k := by
  cases kind : e.reference with
  | some p => simp [judgeFigures_reference kind]
  | none =>
    by_cases above : e.ratioLimit < ratio
    · simp [judgeFigures_permanent kind above]
    · obtain h | h := judgeFigures_within (t := t) (elastic := elastic) kind (Nat.le_of_not_lt above) <;> simp [h]

end

/-! ### The cases of an evaluation's result (R129, R130) -/

/-- The figures once stage 5 has given a total t (R130). -/
def Jacket.figuresOver (j : Jacket) (t : Nat) : Figures :=
  { j.readFigures with t, ratio := expansionRatio (firstOf j.vent) t, elastic := elasticExpansion (firstOf j.vent) t }

/-- The normalised total of a jacket's readings (R126). -/
def Jacket.total (j : Jacket) (e : TypeEntry) : Nat := normalised e (firstOf j.hold) (secondOf j.hold)

section
variable {j : Jacket} {e : TypeEntry} {limit : Nat}

theorem formResult_earlyEnd {cause : EarlyCause} (h : j.earlyEnd = some cause) :
    formResult j e limit = (cause.outcome, j.readFigures) := by
  simp only [formResult, h]

theorem formResult_thermal (ended : j.earlyEnd = none) (h : thermalFails (secondOf j.zero) (secondOf j.vent) limit = true) :
    formResult j e limit = (.invalid .thermal, j.readFigures) := by
  simp only [formResult, ended, if_pos h]

theorem formResult_pressureWindow (ended : j.earlyEnd = none)
    (thermal : ¬ thermalFails (secondOf j.zero) (secondOf j.vent) limit = true)
    (h : windowFails e (secondOf j.hold) = true) :
    formResult j e limit = (.invalid .pressureWindow, j.readFigures) := by
  have outside : windowFails e j.readFigures.pRead = true := h
  simp only [formResult, ended, if_neg thermal, if_pos outside]

theorem formResult_past_window (ended : j.earlyEnd = none)
    (thermal : ¬ thermalFails (secondOf j.zero) (secondOf j.vent) limit = true)
    (window : ¬ windowFails e (secondOf j.hold) = true) :
    formResult j e limit =
      if j.total e = 0 then (.invalid .noExpansion, j.readFigures)
      else (judgeFigures e (j.total e) (j.figuresOver (j.total e)).ratio (j.figuresOver (j.total e)).elastic,
        j.figuresOver (j.total e)) := by
  have inside : ¬ windowFails e j.readFigures.pRead = true := window
  simp only [formResult, ended, if_neg thermal, if_neg inside]
  rfl

end

/-- The figures are those read, or those over a total of at least 1 (R127, R130). -/
theorem formResult_figures (j : Jacket) (e : TypeEntry) (limit : Nat) :
    (formResult j e limit).2 = j.readFigures ∨
      j.total e ≠ 0 ∧ (formResult j e limit).2 = j.figuresOver (j.total e) := by
  cases ended : j.earlyEnd with
  | some cause => exact .inl (by rw [formResult_earlyEnd ended])
  | none =>
    by_cases thermal : thermalFails (secondOf j.zero) (secondOf j.vent) limit = true
    · exact .inl (by rw [formResult_thermal ended thermal])
    by_cases window : windowFails e (secondOf j.hold) = true
    · exact .inl (by rw [formResult_pressureWindow ended thermal window])
    rw [formResult_past_window ended thermal window]
    by_cases noTotal : j.total e = 0
    · exact .inl (by rw [if_pos noTotal])
    · exact .inr ⟨noTotal, by rw [if_neg noTotal]⟩

/-- Settles O29: the window bounds P_read from both sides, which gives the total's clause; the ratio's clauses are its saturation and the
judgment of the figures; and a result's figures are those read, all 0 from stage 5 on, or those over a total of at least 1. -/
theorem expansionFigures : Obligations.ExpansionFigures := by
  refine ⟨fun e tRaw pRead => ⟨normalised_eq e tRaw pRead, fun ptest window inside => ?_⟩,
    fun e ePerm t elastic positive => ?_, fun j e limit => ?_⟩
  · obtain ⟨atLeast, zero⟩ := within_window ptest window inside
    exact ⟨atLeast, zero tRaw⟩
  · refine ⟨expansionRatio_eq ePerm t, expansionRatio_le ePerm t, lt_of_ratio_above positive, expansionRatio_of_lt positive,
      judgeFigures_ne_invalid, fun ordinary full => ?_, fun ordinary below saturated => ?_, Nat.sub_add_cancel,
      fun above => Nat.sub_eq_zero_of_le above.le⟩
    · exact judgeFigures_ne_permanent ordinary (full ▸ expansionRatio_le ePerm t)
    · exact judgeFigures_permanent ordinary (by omega)
  · obtain figures | ⟨total, figures⟩ := formResult_figures j e limit <;> rw [figures]
    · exact ⟨Nat.zero_le _, Nat.zero_le _, fun _ => ⟨rfl, rfl⟩⟩
    · exact ⟨Nat.min_le_left _ _, expansionRatio_le _ _, fun zero => absurd zero total⟩

/-- Settles O30: an early end decides alone; otherwise the thermal check, the window, the total and the judgment of the figures are asked in
this order, each comparison by its two sides. -/
theorem evaluationOutcome : Obligations.EvaluationOutcome := by
  intro j e limit z tz tRaw pRead ePerm tv t unreached reached allowance thermal outside
  refine ⟨formResult_earlyEnd, formResult_earlyEnd, formResult_earlyEnd, formResult_earlyEnd,
    fun ended hot => formResult_thermal ended (thermalFails_iff.mpr hot),
    fun ended cool off => formResult_pressureWindow ended (mt thermalFails_iff.mp cool) (windowFails_iff.mpr off),
    fun ended cool near zero => ?_, fun ended cool near expanded => ?_, fun _ _ _ => rfl⟩
  · exact (formResult_past_window ended (mt thermalFails_iff.mp cool) (mt windowFails_iff.mp near)).trans (if_pos zero)
  · have judged : formResult j e limit = (judgeFigures e t (expansionRatio ePerm t) (t - ePerm), reached) :=
      (formResult_past_window ended (mt thermalFails_iff.mp cool) (mt windowFails_iff.mp near)).trans (if_neg expanded)
    rw [judged]
    refine ⟨fun ref reference => ?_, fun ordinary above => ?_, fun ordinary within => ⟨fun r limited above => ?_, fun free => ?_⟩⟩
    · rw [judgeFigures_reference reference, RefPart.judge_eq]
    · rw [judgeFigures_permanent ordinary above]
    · rw [judgeFigures_elastic ordinary within limited above]
    · rw [judgeFigures_pass ordinary within free]

end Sys2Proof.Machine
end

section
/-! SUPPORT. What a SET DATE comes to (R175, R145). -/
namespace Sys2Proof.Machine

/-! ### The date set (R175, R145) -/

/-- The part on another plant date: the date becomes this one, and every verified flag is cleared (R145). -/
def Controller.onNewDate (c : Controller) (d : Date) : Controller :=
  { c with
    line := { c.line with date := some d }
    verification := c.verification.map fun v => { v with verified := false } }

/-- Of a jacket's verification only the flag is cleared (R145). -/
@[simp] theorem verif_onNewDate (c : Controller) (d : Date) (n : JacketNo) :
    (c.onNewDate d).verif n = { c.verif n with verified := false } := by
  simp only [Controller.onNewDate, Controller.verif, vector_get, Vector.getElem_map]

section
variable {c : Controller} {d : Date}

theorem setDate_of_invalid (invalid : d.valid = false) : c.setDate d = .error .badField := if_pos invalid

theorem setDate_of_standing (valid : d.valid = true) (standing : c.line.date = some d) : c.setDate d = .ok c := by
  have unchanged : { c with line := { c.line with date := some d } } = c := by rw [← standing]
  rw [Controller.setDate, if_neg (ne_false_of_eq_true valid), if_pos standing, unchanged]

theorem setDate_of_other (valid : d.valid = true) (other : c.line.date ≠ some d) : c.setDate d = .ok (c.onNewDate d) := by
  rw [Controller.setDate, if_neg (ne_false_of_eq_true valid), if_neg other]
  rfl

end

/-! ### The request (R4, R183) -/

theorem exec_setDate {s : State} {h : Header} {y1 y2 month day : Byte} (takes : s.part.Takes h 6) :
    exec (.setDate h [y1, y2, month, day]) s =
      .next (s.withPart ((s.part.taken (manageFrame h [3, 5, y1, y2, month, day]).markTaken.wire).request h.source.toNat
        [3, 5, y1, y2, month, day])) := by
  rw [← receiveFrame_request takes]
  rfl

theorem judgeRequest_setDate (c : Controller) (y1 y2 month day : Byte) :
    c.judgeRequest [3, 5, y1, y2, month, day] =
      c.commandAnswer 5 (c.setDate { year := read2 y1 y2, month := month.toNat, day := day.toNat }) := rfl

/-! ### What it leaves -/

theorem OnlyPlaces.verif {c d : Controller} (h : OnlyPlaces c d) (n : JacketNo) : d.verif n = c.verif n := by
  rw [Controller.verif, h.verification, Controller.verif]

/-- A jacket whose flag is clear is eligible for reference records alone (R77). -/
theorem not_eligible_of_unverified {c : Controller} {n : JacketNo} {r : Record} (unverified : (c.verif n).verified = false)
    (ordinary : r.spec.reference = none) : c.eligible n r = false := by
  simp [Controller.eligible, TypeEntry.isReference, unverified, ordinary]

/-- Settles O38: the date is judged on the part as the request found it; another date leaves it on the new date, the one that stands and an
invalid one leave it as it was, and the answer only places frames. -/
theorem setDateClearsVerification : Obligations.SetDateClearsVerification := by
  intro s h y1 y2 month day takes d data
  let taken := s.part.taken (manageFrame h [3, 5, y1, y2, month, day]).markTaken.wire
  have asked := judgeRequest_setDate taken y1 y2 month day
  refine ⟨fun valid other => ⟨_, exec_setDate takes, ?_⟩, fun valid standing => ⟨_, exec_setDate takes, ?_⟩,
    fun invalid => ⟨_, exec_setDate takes, ?_⟩⟩
  · have answer := asked.trans (congrArg (taken.commandAnswer 5) (setDate_of_other valid other))
    have placed := request_onlyPlaces answer h.source.toNat
    have cleared (n : JacketNo) := (placed.verif n).trans (verif_onNewDate taken d n)
    exact ⟨placed.line, cleared, placed.jackets,
      fun n r => not_eligible_of_unverified (congrArg Verification.verified (cleared n)),
      placed.records, request_replied answer _⟩
  · have answer := asked.trans (congrArg (taken.commandAnswer 5) (setDate_of_standing valid standing))
    exact ⟨request_onlyAnswers answer _, request_replied answer _⟩
  · have answer := asked.trans (congrArg (taken.commandAnswer 5) (setDate_of_invalid invalid))
    exact ⟨request_onlyAnswers answer _, request_replied answer _⟩

end Sys2Proof.Machine
end

section
/-! SUPPORT. The invariants that every small change and every move keeps: the register, the lists of the Ring Port, the line, the infeed mark and the
verification fields (O53 to O57). -/
namespace Sys2Proof.Machine

/-! ### What the moves of the receiver, the transmitter and the hold causes write -/

/-- The lock and its count are all that a change of lock writes (R13). -/
theorem setLock_eq (c : Controller) (b : Bool) :
    c.setLock b = { c with ring := { c.ring with locked := b, lockCount := if c.ring.locked = b then c.ring.lockCount else 0 } } := by
  unfold Controller.setLock
  split
  · next h => subst h; rfl
  · rfl

/-- A completed transmission frees the transmitter and at most the head of the forward buffer (R3). -/
theorem completeTransmission_eq (c : Controller) :
    c.completeTransmission = { c with ring := { c.ring with
      transmitter := .free
      forward := if c.ring.transmitter = .forwarding then c.ring.forward.tail else c.ring.forward } } := by
  unfold Controller.completeTransmission
  split
  · next h => obtain ⟨⟨⟩⟩ := c; simp_all
  · next h => simp [h]
  · next h => simp [h]

/-- A hold cause is all that its change writes (R172). -/
theorem setCause_eq (c : Controller) (k : HoldCause) (b : Bool) :
    c.setCause k b = { c with line := { c.line with
      causeLineHold := if k = .lineHold then b else c.line.causeLineHold
      causeRing := if k = .ring then b else c.line.causeRing } } := by
  cases k <;> rfl

@[simp] theorem setCause_line_state (c : Controller) (k : HoldCause) (b : Bool) : (c.setCause k b).line.state = c.line.state := by
  cases k <;> rfl
@[simp] theorem setCause_line_holdFrom (c : Controller) (k : HoldCause) (b : Bool) :
    (c.setCause k b).line.holdFrom = c.line.holdFrom := by cases k <;> rfl
@[simp] theorem setCause_line_date (c : Controller) (k : HoldCause) (b : Bool) : (c.setCause k b).line.date = c.line.date := by
  cases k <;> rfl
@[simp] theorem setCause_line_items (c : Controller) (k : HoldCause) (b : Bool) : (c.setCause k b).line.items = c.line.items := by
  cases k <;> rfl
@[simp] theorem setCause_records (c : Controller) (k : HoldCause) (b : Bool) : (c.setCause k b).records = c.records := by
  cases k <;> rfl
@[simp] theorem setCause_ring (c : Controller) (k : HoldCause) (b : Bool) : (c.setCause k b).ring = c.ring := by
  cases k <;> rfl

theorem actsOnTags_iff (c : Controller) :
    c.actsOnTags = true ↔
      c.line.state = .running ∧ c.records.length < Config.registerCapacity ∧ normalRoom c.ring.queue = true := by
  simp [Controller.actsOnTags, and_assoc]

/-! ### The register (O53) -/

theorem sameIdentity_refl (r : Record) : r.SameIdentity r := ⟨rfl, rfl, rfl, rfl, rfl, rfl, rfl, rfl, rfl⟩

theorem Record.SameIdentity.trans {a b c : Record} (h : a.SameIdentity b) (k : b.SameIdentity c) : a.SameIdentity c := by
  unfold Record.SameIdentity at *
  simp_all

/-- Updates that keep the identity keep the list of every identity field. -/
theorem map_updRecord (c : Controller) (slot : Nat) (f : Record → Record) {α : Type} (g : Record → α) (h : ∀ r, g (f r) = g r) :
    (c.updRecord slot f).records.map g = c.records.map g := by
  show (c.records.map fun r => if r.slot = slot then f r else r).map g = _
  rw [List.map_map]
  refine List.map_congr_left fun r _ => ?_
  simp only [Function.comp]
  split
  · exact h r
  · rfl

/-- With fewer than 64 records some slot is free, and the lowest free one is taken (R40). -/
theorem freeSlot_free (c : Controller) (h : c.records.length < Config.registerCapacity) :
    c.freeSlot < Config.registerCapacity ∧ c.freeSlot ∉ c.records.map Record.slot := by
  unfold Controller.freeSlot
  cases found : (List.range Config.registerCapacity).find? fun s => (c.recordAt s).isNone with
  | some s =>
    have free := List.find?_some found
    have inside := List.mem_range.mp (List.mem_of_find?_eq_some found)
    refine ⟨inside, fun taken => ?_⟩
    obtain ⟨r, hr, rfl⟩ := List.mem_map.mp taken
    simp only [Controller.recordAt, Option.isNone_iff_eq_none, List.find?_eq_none] at free
    simpa using free r hr
  | none =>
    have all : List.range Config.registerCapacity ⊆ c.records.map Record.slot := fun s hs => by
      have taken := List.find?_eq_none.mp found s hs
      obtain ⟨r, hr⟩ := Option.ne_none_iff_exists'.mp (by simpa using taken)
      have same : r.slot = s := by simpa using List.find?_some hr
      exact List.mem_map.mpr ⟨r, List.mem_of_find?_eq_some hr, same⟩
    have := ((List.nodup_range).subperm all).length_le
    simp at this
    omega

theorem registerSound_admission {c : Controller} (hc : c.RegisterSound) (room : c.records.length < Config.registerCapacity)
    (tag : EntryTag) (e : TypeEntry) (w : Option Window) (fresh : c.recordOf tag.serial = none) :
    ({ c with records := c.records ++ [admitted c.freeSlot tag e w] } : Controller).RegisterSound := by
  obtain ⟨bound, serials, slots, inside⟩ := hc
  obtain ⟨low, free⟩ := freeSlot_free c room
  have newSerial : tag.serial ∉ c.records.map Record.serial := fun taken => by
    obtain ⟨r, hr, same⟩ := List.mem_map.mp taken
    have := List.find?_eq_none.mp fresh r hr
    simp [same] at this
  refine ⟨by simp; omega, ?_, ?_, ?_⟩
  · rw [List.map_append]
    exact List.nodup_append.mpr ⟨serials, by simp, fun a ha b hb => by
      rintro rfl; simp [admitted] at hb; exact newSerial (hb ▸ ha)⟩
  · rw [List.map_append]
    exact List.nodup_append.mpr ⟨slots, by simp, fun a ha b hb => by
      rintro rfl; simp [admitted] at hb; exact free (hb ▸ ha)⟩
  · intro r hr
    rcases List.mem_append.mp hr with old | new
    · exact inside r old
    · rw [List.mem_singleton.mp new]; exact low

theorem Change.registerSound {a b : Controller} (h : Change a b) : a.RegisterSound → b.RegisterSound := by
  rintro ⟨bound, serials, slots, inside⟩
  cases h with
  | record slot f hf =>
    have sameSlot (r : Record) : (f r).slot = r.slot := (hf r).1
    have sameSerial (r : Record) : (f r).serial = r.serial := (hf r).2.1
    refine ⟨by simpa [Controller.updRecord] using bound, ?_, ?_, ?_⟩
    · rwa [map_updRecord _ _ _ _ sameSerial]
    · rwa [map_updRecord _ _ _ _ sameSlot]
    · intro r hr
      have : r.slot ∈ a.records.map Record.slot := by
        rw [← map_updRecord a slot f _ sameSlot]
        exact List.mem_map_of_mem hr
      obtain ⟨x, hx, same⟩ := List.mem_map.mp this
      exact same ▸ inside x hx
  | drop slot =>
    exact ⟨(List.length_filter_le _ _).trans bound, serials.sublist (List.filter_sublist.map _),
      slots.sublist (List.filter_sublist.map _), fun r hr => inside r (List.mem_filter.mp hr).1⟩
  | _ => exact ⟨bound, serials, slots, inside⟩

theorem registerSound_of_records {c d : Controller} (h : d.records = c.records) (hc : c.RegisterSound) : d.RegisterSound := by
  unfold Controller.RegisterSound
  rwa [h]

theorem Move.registerSound {adm : Prop} {a b : Controller} (h : Move adm a b) (ha : a.RegisterSound) : b.RegisterSound := by
  cases h with
  | change k => exact k.registerSound ha
  | admission tag e w acts fresh => exact registerSound_admission ha ((actsOnTags_iff _).mp acts).2.1 tag e w fresh
  | restart => exact ⟨Nat.zero_le _, List.nodup_nil, List.nodup_nil, fun _ hr => nomatch hr⟩
  | lock b => exact registerSound_of_records (by rw [setLock_eq]) ha
  | complete => exact registerSound_of_records (by rw [completeTransmission_eq]) ha
  | cause k b => exact registerSound_of_records (by rw [setCause_eq]) ha
  | hold k => exact registerSound_of_records (by rw [setCause_eq]; rfl) ha
  | _ => exact ha

theorem powerOn_registerSound (a : NodeAddress) : (Controller.powerOn a).RegisterSound :=
  ⟨Nat.zero_le _, List.nodup_nil, List.nodup_nil, fun _ hr => nomatch hr⟩

/-- Every record of d keeps the identity of one of c. -/
def Descends (c d : Controller) : Prop := ∀ r' ∈ d.records, ∃ r ∈ c.records, r.SameIdentity r'

theorem Descends.of_records {c d : Controller} (h : d.records = c.records) : Descends c d := fun r' hr' =>
  ⟨r', h ▸ hr', sameIdentity_refl r'⟩

theorem Descends.trans {a b c : Controller} (h : Descends a b) (k : Descends b c) : Descends a c := fun z hz => by
  obtain ⟨y, hy, yz⟩ := k z hz
  obtain ⟨x, hx, xy⟩ := h y hy
  exact ⟨x, hx, xy.trans yz⟩

theorem Change.descends {a b : Controller} (h : Change a b) : Descends a b := by
  cases h with
  | record slot f hf =>
    intro r' hr'
    obtain ⟨r, hr, rfl⟩ := List.mem_map.mp hr'
    refine ⟨r, hr, ?_⟩
    split
    · exact hf r
    · exact sameIdentity_refl r
  | drop slot => exact fun r' hr' => ⟨r', (List.mem_filter.mp hr').1, sameIdentity_refl r'⟩
  | _ => exact .of_records rfl

/-- Without admission every record descends from one that was there (R41). -/
theorem Move.descends {a b : Controller} (h : Move False a b) : Descends a b := by
  cases h with
  | change k => exact k.descends
  | admission _ _ _ _ _ never => exact never.elim
  | restart => exact fun _ hr => nomatch hr
  | lock b => exact .of_records (by rw [setLock_eq])
  | complete => exact .of_records (by rw [completeTransmission_eq])
  | cause k b => exact .of_records (by rw [setCause_eq])
  | hold k => exact .of_records (by rw [setCause_eq]; rfl)
  | _ => exact .of_records rfl

theorem Moves.descends {a b : Controller} (h : Moves False a b) : Descends a b := by
  induction h with
  | refl => exact .of_records rfl
  | tail _ k ih => exact ih.trans k.descends

/-- Every record of d keeps the identity of one of c, or carries a serial that no record of c did. -/
def DescendsOrNew (c d : Controller) : Prop :=
  ∀ r' ∈ d.records, (∃ r ∈ c.records, r.SameIdentity r') ∨ c.recordOf r'.serial = none

theorem Descends.orNew {c d : Controller} (h : Descends c d) : DescendsOrNew c d := fun r hr => .inl (h r hr)

theorem Acts.orNew {c d : Controller} (h : Acts False c d) : DescendsOrNew c d := h.moves.descends.orNew

/-- An entry tag admits only a serial that no record carries (R46, R51). -/
theorem screen_fresh {c : Controller} {tag : EntryTag} {e : TypeEntry} {w : Option Window}
    (h : c.screen tag = .admission e w) : c.recordOf tag.serial = none := by
  unfold Controller.screen at h
  split at h
  · cases h
  · split at h
    · cases h
    · split at h
      · cases h
      · split at h
        · cases h
        · next g => simpa using g

theorem takeTag_orNew (c : Controller) (tag : EntryTag) : DescendsOrNew c (c.takeTag tag) := by
  unfold Controller.takeTag
  split
  · next acts =>
    have gate (lane : GateDest) : Acts False c (c.gateOnly tag.serial lane) := (Move.gateOnly tag.serial lane acts).one.judge _
    split
    · exact (gate _).orNew
    · exact ((gate _).trans (raise_settles _ _ _ _).acts).orNew
    · next e w admits =>
      intro r' hr'
      unfold Controller.admission at hr'
      rw [(judge_onlyPlaces _ _).records] at hr'
      rcases List.mem_append.mp hr' with old | new
      · exact .inl ⟨r', old, sameIdentity_refl r'⟩
      · rw [List.mem_singleton.mp new]
        exact .inr (screen_fresh admits)
  · exact (judge_settles _ _).acts.orNew

/-- Only an ENTRY TAG, of kind 1, can admit. -/
theorem classify_orNew (c : Controller) (source kind : Nat) (p : List Byte) : DescendsOrNew c (c.classify source kind p) := by
  by_cases k : kind = 1
  · subst k
    unfold Controller.classify
    split
    · split
      · exact takeTag_orNew _ _
      · exact (stray_settles _ _ _ _).acts.orNew
    all_goals first | contradiction | exact (jacketReport_settles _ _ _ _).acts.orNew | exact Acts.refl.orNew
  · exact (classify_acts c source kind p k).orNew

theorem passOn_orNew (c : Controller) (f : Frame) : DescendsOrNew c (c.passOn f) := by
  unfold Controller.passOn
  split
  · exact Acts.refl.orNew
  · next room =>
    have room : c.forwardRoom = true := by simpa using room
    split
    · split
      · exact (((Move.forward _ room).acts.trans (Change.buffer _).settles.acts).trans (request_acts _ _ _)).orNew
      · exact (Move.forward _ room).acts.orNew
    · exact classify_orNew (c.placeForward f.wire) _ _ _

theorem accept_orNew (c : Controller) (f : Frame) : DescendsOrNew c (c.accept f) := by
  unfold Controller.accept
  split
  · exact (matchReturn_acts _ _ _).orNew
  · exact passOn_orNew _ _

theorem receiveBytes_orNew (c : Controller) (bytes : List Byte) : DescendsOrNew c (c.receiveBytes bytes) := by
  unfold Controller.receiveBytes
  split
  · exact (bypassFrame_acts _ _).orNew
  · split
    · exact Acts.refl.orNew
    · exact accept_orNew _ _

theorem receiveFrame_orNew (c : Controller) (f : Frame) : DescendsOrNew c (c.receiveFrame f) := by
  unfold Controller.receiveFrame
  split
  · exact (bypassFrame_acts _ _).orNew
  · split
    · exact Acts.refl.orNew
    · exact accept_orNew _ _

/-- No command but POWER_ON changes what admission fixed (R41). -/
theorem exec_orNew {i : Instr} {s t : State} (h : exec i s = .next t) (hi : isPowerOn i = false) :
    DescendsOrNew s.part t.part := by
  cases tagged : carriesTag i with
  | false =>
    have acts := exec_acts h hi
    rw [tagged] at acts
    exact (show Acts False _ _ from by simpa using acts).orNew
  | true =>
    cases i <;> first
      | (cases tagged; done)
      | (rw [← Host.Outcome.next.inj h]; first | exact receiveBytes_orNew _ _ | exact receiveFrame_orNew _ _)

/-- Settles O53: every move keeps the register sound, and only an entry tag of a fresh serial adds a record. -/
theorem registerStaysSound : Obligations.RegisterStaysSound :=
  ⟨kept_of_moves (fun _ _ => Move.registerSound) powerOn_registerSound, fun _ _ _ h hi => exec_orNew h hi⟩

end Sys2Proof.Machine
end

section
/-! SUPPORT. The lists of the Ring Port keep their bounds and the outstanding list its numbering (O54). -/
namespace Sys2Proof.Machine

/-! ### The insertion queue (R6) -/

theorem queueBounded_of_sublist {c d : Controller} (h : d.ring.queue.Sublist c.ring.queue) (hc : c.QueueBounded) :
    d.QueueBounded :=
  ⟨h.length_le.trans hc.1, h.countP_le.trans hc.2⟩

theorem queueBounded_of_queue {c d : Controller} (h : d.ring.queue = c.ring.queue) (hc : c.QueueBounded) : d.QueueBounded :=
  queueBounded_of_sublist (by rw [h]) hc

/-- A frame that has room keeps the queue's bounds (R6, R7). -/
theorem queueBounded_enqueue {c : Controller} {b : Body}
    (room : if b.urgent then c.ring.queue.length < Config.queueCapacity else normalRoom c.ring.queue = true)
    (o : Owner) (k m : Bool) (hc : c.QueueBounded) : (c.enqueue b o k m).QueueBounded := by
  obtain ⟨total, normal⟩ := hc
  have counted : normalCount (c.ring.queue ++ [⟨c.destinationOf b, b, o, k, m⟩]) =
      normalCount c.ring.queue + if b.urgent then 0 else 1 := by
    cases u : b.urgent <;> simp [normalCount, List.countP_append, u]
  refine ⟨?_, ?_⟩
  · rw [enqueue_ring_queue, List.length_append]
    cases u : b.urgent <;> simp [u, normalRoom] at room ⊢ <;> omega
  · rw [enqueue_ring_queue, counted]
    cases u : b.urgent <;> simp [u, normalRoom] at room ⊢ <;> omega

theorem hasRoom_room {c : Controller} {b : Body} (h : c.hasRoom b = true) :
    if b.urgent then c.ring.queue.length < Config.queueCapacity else normalRoom c.ring.queue = true := by
  simp only [Controller.hasRoom, Bool.and_eq_true] at h
  obtain ⟨-, room⟩ := h
  split at room <;> simp_all

theorem queueRest_sublist (q : List QueueEntry) : (queueRest q).Sublist q := by
  unfold queueRest
  split
  · exact List.eraseP_sublist
  · exact List.tail_sublist q

theorem Change.queueBounded {a b : Controller} (h : Change a b) (ha : a.QueueBounded) : b.QueueBounded := by
  cases h with
  | place body o k m room => exact queueBounded_enqueue (hasRoom_room room) o k m ha
  | thin q sub => exact queueBounded_of_sublist sub ha
  | relabelQueue f same =>
    obtain ⟨total, normal⟩ := ha
    refine ⟨by simpa [Controller.setQueue] using total, ?_⟩
    show normalCount (a.ring.queue.map f) ≤ _
    rw [normalCount, List.countP_map]
    simpa [Function.comp_def, same, normalCount] using normal
  | _ => exact ha

theorem Move.queueBounded {adm : Prop} {a b : Controller} (h : Move adm a b) (ha : a.QueueBounded) : b.QueueBounded := by
  cases h with
  | change k => exact k.queueBounded ha
  | gateOnly serial lane acts => exact queueBounded_enqueue (b := .gate serial lane) ((actsOnTags_iff _).mp acts).2.2 _ _ _ ha
  | startOwn e own => exact queueBounded_of_sublist (queueRest_sublist _) ha
  | hold k state => exact queueBounded_of_sublist List.filter_sublist ha
  | restart state => exact queueBounded_of_sublist List.filter_sublist ha
  | lock b => exact queueBounded_of_queue (by rw [setLock_eq]) ha
  | complete => exact queueBounded_of_queue (by rw [completeTransmission_eq]) ha
  | cause k b => exact queueBounded_of_queue (by rw [setCause_ring]) ha
  | _ => exact ha

/-! ### The forward buffer (R3) -/

theorem Change.forward {a b : Controller} (h : Change a b) : b.ring.forward = a.ring.forward := by cases h <;> rfl

theorem Move.forwardBounded {adm : Prop} {a b : Controller} (h : Move adm a b) (ha : a.ForwardBounded) : b.ForwardBounded := by
  cases h with
  | change k => unfold Controller.ForwardBounded; rwa [k.forward]
  | forward bytes room =>
    simp only [Controller.forwardRoom, decide_eq_true_eq] at room
    simp only [Controller.ForwardBounded, placeForward_ring_forward, List.length_append, List.length_singleton]
    omega
  | complete =>
    rw [completeTransmission_eq]
    show (if _ then _ else _ : List (List Byte)).length ≤ _
    split
    · exact (List.tail_sublist _).length_le.trans ha
    · exact ha
  | lock b => rw [setLock_eq]; exact ha
  | cause k b => unfold Controller.ForwardBounded; rwa [setCause_ring]
  | hold k state => rw [setCause_eq]; exact ha
  | _ => exact ha

/-! ### The outstanding list (R10, R11) -/

theorem outstandingNumbered_of {c d : Controller} (seq : d.ring.sequence = c.ring.sequence)
    (same : d.ring.outstanding.map OutEntry.sequence = c.ring.outstanding.map OutEntry.sequence) (hc : c.OutstandingNumbered) :
    d.OutstandingNumbered := by
  have len : d.ring.outstanding.length = c.ring.outstanding.length := by simpa using congrArg List.length same
  unfold Controller.OutstandingNumbered
  rw [seq, same, len]
  exact hc

theorem outstandingNumbered_relabel {c d : Controller} {f : OutEntry → OutEntry} (seq : d.ring.sequence = c.ring.sequence)
    (out : d.ring.outstanding = c.ring.outstanding.map f) (same : ∀ e, (f e).sequence = e.sequence)
    (hc : c.OutstandingNumbered) : d.OutstandingNumbered :=
  outstandingNumbered_of seq (by rw [out, List.map_map]; exact List.map_congr_left fun e _ => same e) hc

theorem Change.outstandingNumbered {a b : Controller} (h : Change a b) (ha : a.OutstandingNumbered) : b.OutstandingNumbered := by
  cases h with
  | relabelOut f same => exact outstandingNumbered_relabel (c := a) rfl rfl (fun e => (same e).1) ha
  | _ => exact ha

/-- The oldest entry leaves, and the rest are still numbered up to the counter (R11). -/
theorem outstandingNumbered_pop {c : Controller} {e : OutEntry} {rest : List OutEntry} (h : c.ring.outstanding = e :: rest)
    (hc : c.OutstandingNumbered) : (c.setOutstanding rest).OutstandingNumbered := by
  obtain ⟨seq, bound, numbers⟩ := hc
  rw [h, List.length_cons] at bound
  rw [h, List.map_cons, List.length_cons, List.range_succ_eq_map, List.map_cons, List.map_map] at numbers
  refine ⟨seq, by simp only [setOutstanding_ring_outstanding]; omega, ?_⟩
  simp only [setOutstanding_ring_outstanding, setOutstanding_ring_sequence]
  rw [(List.cons.inj numbers).2]
  refine List.map_congr_left fun i _ => ?_
  simp only [Function.comp, Config.outstandingCapacity] at bound ⊢
  congr 1
  omega

/-- A frame that starts takes the counter's number and stands last (R10). -/
theorem outstandingNumbered_start {c d : Controller} {e : OutEntry} (number : e.sequence = c.ring.sequence)
    (seq : d.ring.sequence = (c.ring.sequence + 1) % 256) (out : d.ring.outstanding = c.ring.outstanding ++ [e])
    (room : c.ring.outstanding.length < Config.outstandingCapacity) (hc : c.OutstandingNumbered) : d.OutstandingNumbered := by
  obtain ⟨low, bound, numbers⟩ := hc
  simp only [Config.outstandingCapacity] at bound room
  refine ⟨by rw [seq]; omega, by rw [out, List.length_append]; simp [Config.outstandingCapacity]; omega, ?_⟩
  rw [out, seq, List.map_append, numbers, List.length_append, List.length_singleton, List.range_succ, List.map_append]
  congr 1
  · refine List.map_congr_left fun i _ => ?_
    omega
  · simp only [List.map_singleton, number, List.cons.injEq, and_true]
    omega

theorem ownCandidate_some {c : Controller} {e : QueueEntry} (h : c.ownCandidate = some e) :
    c.ring.status = .up ∧ c.ring.outstanding.length < Config.outstandingCapacity ∧ c.bypass = false ∧
      queueHead c.ring.queue = some e := by
  unfold Controller.ownCandidate at h
  split at h
  · next open_ => exact ⟨open_.1, open_.2.1, open_.2.2, h⟩
  · cases h

theorem OutEntry.restart_sequence (e : OutEntry) : e.restart.sequence = e.sequence := by
  unfold OutEntry.restart
  split <;> rfl

theorem Move.outstandingNumbered {adm : Prop} {a b : Controller} (h : Move adm a b) (ha : a.OutstandingNumbered) :
    b.OutstandingNumbered := by
  cases h with
  | change k => exact k.outstandingNumbered ha
  | pop e rest out => exact outstandingNumbered_pop out ha
  | startOwn e own => exact outstandingNumbered_start rfl rfl rfl (ownCandidate_some own).2.1 ha
  | restart state => exact outstandingNumbered_relabel (c := a) rfl rfl OutEntry.restart_sequence ha
  | lock b => rw [setLock_eq]; exact ha
  | complete => rw [completeTransmission_eq]; exact ha
  | cause k b => unfold Controller.OutstandingNumbered; rwa [setCause_ring]
  | hold k state => rw [setCause_eq]; exact ha
  | _ => exact ha

theorem outstandingNumbered_nodup {c : Controller} (h : c.OutstandingNumbered) :
    (c.ring.outstanding.map OutEntry.sequence).Nodup := by
  obtain ⟨-, bound, numbers⟩ := h
  simp only [Config.outstandingCapacity] at bound
  rw [numbers]
  refine List.Nodup.map_on (fun i hi j hj same => ?_) List.nodup_range
  rw [List.mem_range] at hi hj
  omega

/-- Settles O54: every move keeps the bounds and the numbering, and 16 numbers in a row are distinct modulo 256. -/
theorem ringListsStayBounded : Obligations.RingListsStayBounded :=
  ⟨⟨kept_of_moves (fun _ _ => Move.queueBounded) fun _ => ⟨Nat.zero_le _, Nat.zero_le _⟩,
      kept_of_moves (fun _ _ => Move.forwardBounded) fun _ => Nat.zero_le _⟩,
    kept_of_moves (fun _ _ => Move.outstandingNumbered) fun _ => ⟨Nat.zero_lt_succ _, Nat.zero_le _, rfl⟩,
    fun _ => outstandingNumbered_nodup⟩

end Sys2Proof.Machine
end

section
/-! SUPPORT. The line's laws: STOPPED means an empty register, no start without a plant date, and no frame of the hold set while HOLDING (O55); the
infeed mark follows its conditions (O56). -/
namespace Sys2Proof.Machine

/-! ### The register of a STOPPED line (R42, R173) -/

theorem Change.stoppedEmpty {a b : Controller} (h : Change a b) (ha : a.StoppedEmpty) : b.StoppedEmpty := by
  obtain ⟨stopped, held, from_⟩ := ha
  cases h with
  | record slot f hf =>
    exact ⟨fun s => by simp [Controller.updRecord, stopped s], fun s k => by simp [Controller.updRecord, held s k], from_⟩
  | drop slot => exact ⟨fun s => by simp [stopped s], fun s k => by simp [held s k], from_⟩
  | drained ended => exact ⟨fun _ => ended.2, fun s _ => (LineState.noConfusion s), from_⟩
  | _ => exact ⟨stopped, held, from_⟩

theorem LineControl.restart_state (l : LineControl) :
    (l.state ≠ .holding ∧ l.restart = l) ∨ (l.state = .holding ∧ l.restart = { l with holdFrom := .stopped }) ∨
      (l.state = .holding ∧ l.restart = { l with state := .stopped }) := by
  unfold LineControl.restart
  split
  · next holding =>
    split
    · exact .inr (.inl ⟨holding, rfl⟩)
    · exact .inr (.inr ⟨holding, rfl⟩)
  · next other => exact .inl ⟨other, rfl⟩

theorem stoppedEmpty_of {c d : Controller} (state : d.line.state = c.line.state) (holdFrom : d.line.holdFrom = c.line.holdFrom)
    (records : d.records = c.records) (hc : c.StoppedEmpty) : d.StoppedEmpty := by
  unfold Controller.StoppedEmpty
  rwa [state, holdFrom, records]

theorem Move.stoppedEmpty {adm : Prop} {a b : Controller} (h : Move adm a b) (ha : a.StoppedEmpty) : b.StoppedEmpty := by
  obtain ⟨stopped, held, from_⟩ := id ha
  cases h with
  | change k => exact k.stoppedEmpty ha
  | admission tag e w acts =>
    have running := ((actsOnTags_iff _).mp acts).1
    exact ⟨fun s => by simp [running] at s, fun s => by simp [running] at s, from_⟩
  | cause k b => exact stoppedEmpty_of (by simp) (by simp) (by simp) ha
  | lock b => exact stoppedEmpty_of (by rw [setLock_eq]) (by rw [setLock_eq]) (by rw [setLock_eq]) ha
  | complete =>
    exact stoppedEmpty_of (by rw [completeTransmission_eq]) (by rw [completeTransmission_eq]) (by rw [completeTransmission_eq]) ha
  | hold k state =>
    rw [setCause_eq]
    exact ⟨fun s => LineState.noConfusion s, fun _ k => stopped k, state⟩
  | start _ _ => exact ⟨fun s => LineState.noConfusion s, fun s => LineState.noConfusion s, from_⟩
  | stopEmpty _ empty => exact ⟨fun _ => empty, fun s => LineState.noConfusion s, from_⟩
  | stopDrain _ _ => exact ⟨fun s => LineState.noConfusion s, fun s => LineState.noConfusion s, from_⟩
  | resumeDrained _ empty => exact ⟨fun _ => empty, fun s => LineState.noConfusion s, fun s => LineState.noConfusion s⟩
  | resume holding => exact ⟨fun s => held holding s, fun s => (from_ s).elim, fun s => LineState.noConfusion s⟩
  | restart _ =>
    refine ⟨fun _ => rfl, fun _ _ => rfl, ?_⟩
    show a.line.restart.holdFrom ≠ .holding
    rcases a.line.restart_state with ⟨-, e⟩ | ⟨-, e⟩ | ⟨-, e⟩ <;> rw [e]
    · exact from_
    · exact fun s => LineState.noConfusion s
    · exact from_
  | _ => exact ⟨stopped, held, from_⟩

/-! ### A line without a plant date (R142, R170) -/

theorem dateSet_of {c d : Controller} (state : d.line.state = c.line.state) (holdFrom : d.line.holdFrom = c.line.holdFrom)
    (date : d.line.date = c.line.date) (records : d.records = c.records) (hc : c.DateSet) : d.DateSet := by
  unfold Controller.DateSet
  rwa [state, holdFrom, date, records]

theorem Change.dateSet {a b : Controller} (h : Change a b) (ha : a.DateSet) : b.DateSet := by
  cases h with
  | record slot f hf => exact fun d => ⟨(ha d).1, by simp [Controller.updRecord, (ha d).2]⟩
  | drop slot => exact fun d => ⟨(ha d).1, by simp [(ha d).2]⟩
  | drained ended => exact fun d => ⟨.inl rfl, ended.2⟩
  | _ => exact ha

/-- A line that runs has its date (R170). -/
theorem dateSet_running {c : Controller} (hc : c.DateSet) (running : c.line.state = .running) : c.line.date ≠ none := fun d => by
  have := (hc d).1
  simp [running] at this

theorem Move.dateSet {adm : Prop} {a b : Controller} (h : Move adm a b) (ha : a.DateSet) : b.DateSet := by
  cases h with
  | change k => exact k.dateSet ha
  | admission tag e w acts => exact fun d => (dateSet_running ha ((actsOnTags_iff _).mp acts).1 d).elim
  | cause k b => exact dateSet_of (by simp) (by simp) (by simp) (by simp) ha
  | lock b => rw [setLock_eq]; exact ha
  | complete => rw [completeTransmission_eq]; exact ha
  | hold k state =>
    rw [setCause_eq]
    intro d
    obtain ⟨standing, empty⟩ := ha d
    exact ⟨.inr ⟨rfl, standing.resolve_right fun s => state s.1⟩, empty⟩
  | start _ date => exact fun d => (date d).elim
  | stopEmpty running _ => exact fun d => (dateSet_running ha running d).elim
  | stopDrain running _ => exact fun d => (dateSet_running ha running d).elim
  | resumeDrained _ empty => exact fun _ => ⟨.inl rfl, empty⟩
  | resume holding =>
    intro d
    obtain ⟨standing, empty⟩ := ha d
    rcases standing with stopped | held
    · rw [holding] at stopped; cases stopped
    · exact ⟨.inl held.2, empty⟩
  | restart idle =>
    intro d
    refine ⟨?_, rfl⟩
    show (a.line.restart.state = _ ∨ a.line.restart.state = _ ∧ a.line.restart.holdFrom = _)
    have d : a.line.restart.date = none := d
    rcases a.line.restart_state with ⟨other, e⟩ | ⟨holding, e⟩ | ⟨-, e⟩ <;> rw [e] at d ⊢
    · exact (ha d).1
    · exact .inr ⟨holding, rfl⟩
    · exact .inl rfl
  | date x valid set => exact fun d => nomatch d
  | newDate x valid => exact fun d => nomatch d
  | _ => exact ha

/-! ### The queue of a HOLDING line (R7, R16) -/

theorem holdQuiet_of_subset {c d : Controller} (state : d.line.state = .holding → c.line.state = .holding)
    (sub : d.ring.queue ⊆ c.ring.queue) (hc : c.HoldQuiet) : d.HoldQuiet :=
  fun s e he => hc (state s) e (sub he)

theorem Change.holdQuiet {a b : Controller} (h : Change a b) (ha : a.HoldQuiet) : b.HoldQuiet := by
  cases h with
  | place body o k m room =>
    intro s e he
    rcases List.mem_append.mp he with old | new
    · exact ha s e old
    · rw [List.mem_singleton.mp new]
      have s : a.line.state = .holding := s
      simp only [Controller.hasRoom, s, Bool.and_eq_true] at room
      simpa using room.1
  | thin q sub => exact holdQuiet_of_subset (c := a) id sub.subset ha
  | relabelQueue f same =>
    intro s e he
    obtain ⟨x, hx, rfl⟩ := List.mem_map.mp he
    rw [same]
    exact ha s x hx
  | drained ended => exact fun s => LineState.noConfusion s
  | _ => exact ha

theorem Move.holdQuiet {adm : Prop} {a b : Controller} (h : Move adm a b) (ha : a.HoldQuiet) : b.HoldQuiet := by
  cases h with
  | change k => exact k.holdQuiet ha
  | gateOnly serial lane acts =>
    intro s
    have running := ((actsOnTags_iff _).mp acts).1
    exact absurd (running.symm.trans s) (by decide)
  | startOwn e own => exact holdQuiet_of_subset (c := a) id (queueRest_sublist _).subset ha
  | hold k state =>
    intro _ e he
    simpa using (List.mem_filter.mp he).2
  | start _ _ => exact fun s => LineState.noConfusion s
  | stopEmpty _ _ => exact fun s => LineState.noConfusion s
  | stopDrain _ _ => exact fun s => LineState.noConfusion s
  | resumeDrained _ _ => exact fun s => LineState.noConfusion s
  | resume holding => exact holdQuiet_of_subset (c := a) (fun _ => holding) (List.Subset.refl _) ha
  | restart idle =>
    refine holdQuiet_of_subset (c := a) (fun s => ?_) (List.filter_sublist.subset) ha
    have s : a.line.restart.state = .holding := s
    rcases a.line.restart_state with ⟨-, e⟩ | ⟨holding, -⟩ | ⟨holding, -⟩
    · rwa [e] at s
    · exact holding
    · exact holding
  | cause k b => unfold Controller.HoldQuiet; rwa [setCause_line_state, setCause_ring]
  | lock b => rw [setLock_eq]; exact ha
  | complete => rw [completeTransmission_eq]; exact ha
  | _ => exact ha

/-- Settles O55: every move keeps the three laws of the line. -/
theorem lineStaysSound : Obligations.LineStaysSound :=
  ⟨⟨kept_of_moves (fun _ _ => Move.stoppedEmpty) fun _ => ⟨fun _ => rfl, fun _ _ => rfl, fun s => LineState.noConfusion s⟩,
      kept_of_moves (fun _ _ => Move.dateSet) fun _ _ => ⟨.inl rfl, rfl⟩⟩,
    kept_of_moves (fun _ _ => Move.holdQuiet) fun _ s => LineState.noConfusion s⟩

/-! ### The infeed mark (R52, R53) -/

theorem powerOn_judged (a : NodeAddress) : (Controller.powerOn a).Judged := ⟨rfl, rfl⟩

/-- Settles O56: a millisecond touches nothing the mark is judged by, every command leaves a judged mark judged, and so does power-on. -/
theorem infeedMarkFollowsConditions : Obligations.InfeedMarkFollowsConditions := by
  intro s t h judged
  unfold step at h
  split at h
  · rw [← Host.Outcome.next.inj h]; exact judged
  · next c rest _ =>
    cases power : isPowerOn c with
    | false => exact (exec_acts h power).judged judged
    | true =>
      cases c <;> try cases power
      rw [← Host.Outcome.next.inj h]
      exact (poweredOn_acts (adm := True) _ _).judged (powerOn_judged _)

end Sys2Proof.Machine
end

section
/-! SUPPORT. What no shared operation touches: the tables, the plant date, the items, the frozen views, and of the Ring Port everything but its queue
and its outstanding list. -/
namespace Sys2Proof.Machine

/-- The tables, the plant date and the configuration items are the same. -/
structure StoreKept (c d : Controller) : Prop where
  tables : d.tables = c.tables
  date : d.line.date = c.line.date
  items : d.line.items = c.line.items

/-- The Ring Port is the same but for its queue and its outstanding list. -/
def PortKept (c d : Controller) : Prop :=
  d.ring = { c.ring with queue := d.ring.queue, outstanding := d.ring.outstanding }

/-- What only a request, the transmitter or the receiver changes is the same. -/
structure Kept (c d : Controller) : Prop where
  store : StoreKept c d
  port : PortKept c d
  frozen : d.responder.frozen = c.responder.frozen

theorem StoreKept.refl {c : Controller} : StoreKept c c := ⟨rfl, rfl, rfl⟩
theorem StoreKept.trans {a b c : Controller} (h : StoreKept a b) (k : StoreKept b c) : StoreKept a c :=
  ⟨k.tables.trans h.tables, k.date.trans h.date, k.items.trans h.items⟩

theorem PortKept.refl {c : Controller} : PortKept c c := rfl
theorem PortKept.trans {a b c : Controller} (h : PortKept a b) (k : PortKept b c) : PortKept a c := by
  unfold PortKept at *
  rw [k, h]
theorem PortKept.of_ring {c d : Controller} (h : d.ring = c.ring) : PortKept c d := by
  unfold PortKept
  rw [h]

theorem PortKept.nodeAddress {c d : Controller} (h : PortKept c d) : d.ring.nodeAddress = c.ring.nodeAddress := by rw [h]
theorem PortKept.status {c d : Controller} (h : PortKept c d) : d.ring.status = c.ring.status := by rw [h]
theorem PortKept.locked {c d : Controller} (h : PortKept c d) : d.ring.locked = c.ring.locked := by rw [h]
theorem PortKept.lockCount {c d : Controller} (h : PortKept c d) : d.ring.lockCount = c.ring.lockCount := by rw [h]
theorem PortKept.forward {c d : Controller} (h : PortKept c d) : d.ring.forward = c.ring.forward := by rw [h]
theorem PortKept.transmitter {c d : Controller} (h : PortKept c d) : d.ring.transmitter = c.ring.transmitter := by rw [h]
theorem PortKept.streak {c d : Controller} (h : PortKept c d) : d.ring.streak = c.ring.streak := by rw [h]
theorem PortKept.sequence {c d : Controller} (h : PortKept c d) : d.ring.sequence = c.ring.sequence := by rw [h]
theorem PortKept.clock {c d : Controller} (h : PortKept c d) : d.ring.clock = c.ring.clock := by rw [h]

theorem Kept.refl {c : Controller} : Kept c c := ⟨.refl, .refl, rfl⟩
theorem Kept.trans {a b c : Controller} (h : Kept a b) (k : Kept b c) : Kept a c :=
  ⟨h.store.trans k.store, h.port.trans k.port, k.frozen.trans h.frozen⟩

theorem Change.kept {a b : Controller} (h : Change a b) : Kept a b := by
  cases h <;> exact ⟨⟨rfl, rfl, rfl⟩, rfl, rfl⟩

theorem Changes.kept {a b : Controller} (h : Changes a b) : Kept a b := by
  induction h with
  | refl => exact .refl
  | tail _ k ih => exact ih.trans k.kept

theorem Settles.kept {a b : Controller} (h : Settles a b) : Kept a b := h.changes.kept

theorem setOutstanding_kept (c : Controller) (l : List OutEntry) : Kept c (c.setOutstanding l) := ⟨⟨rfl, rfl, rfl⟩, rfl, rfl⟩

theorem popOldest_kept (c : Controller) (delivered : Bool) : Kept c (c.popOldest delivered) := by
  unfold Controller.popOldest
  split
  · exact .refl
  · exact (setOutstanding_kept c _).trans (outcome_settles _ _ _).kept

theorem popLost_kept (n : Nat) (c : Controller) : Kept c (Controller.popLost n c) := by
  induction n generalizing c with
  | zero => exact .refl
  | succ n ih => exact (popOldest_kept c false).trans (ih _)

theorem matchReturn_kept (c : Controller) (sequence : Nat) (taken : Bool) : Kept c (c.matchReturn sequence taken) := by
  unfold Controller.matchReturn
  split
  · exact .refl
  · exact (popLost_kept _ _).trans (popOldest_kept _ _)

theorem expire_kept (c : Controller) : Kept c c.expire := by
  have depth (n : Nat) (c : Controller) : Kept c (Controller.expireDepth n c) := by
    induction n generalizing c with
    | zero => exact .refl
    | succ n ih =>
      unfold Controller.expireDepth
      split
      · exact .refl
      · split
        · exact (popOldest_kept c false).trans (ih _)
        · exact .refl
  exact depth _ _

theorem takeTag_kept (c : Controller) (tag : EntryTag) : Kept c (c.takeTag tag) := by
  have gate (lane : GateDest) : Kept c (c.gateOnly tag.serial lane) :=
    Kept.trans (b := c.enqueue _ _) ⟨⟨rfl, rfl, rfl⟩, rfl, rfl⟩ (judge_settles _ _).kept
  unfold Controller.takeTag
  split
  · split
    · exact gate _
    · exact (gate _).trans (raise_settles _ _ _ _).kept
    · unfold Controller.admission
      refine .trans ?_ (judge_settles _ _).kept
      exact ⟨⟨rfl, rfl, rfl⟩, rfl, rfl⟩
  · exact (judge_settles _ _).kept

/-- A report reaches no table, no date, no item, and of the Ring Port only the queue and the outstanding list (R5). -/
theorem classify_kept (c : Controller) (source kind : Nat) (p : List Byte) : Kept c (c.classify source kind p) := by
  unfold Controller.classify
  split
  · split
    · exact takeTag_kept _ _
    · exact (stray_settles _ _ _ _).kept
  · split
    · exact (takeMass_settles _ _ _).kept
    · exact (stray_settles _ _ _ _).kept
  · split
    · exact (takeFindings_settles _ _ _).kept
    · exact (stray_settles _ _ _ _).kept
  · split
    · exact (takeStamp_settles _ _ _ _).kept
    · exact (stray_settles _ _ _ _).kept
  · split
    · exact (takeScrap_settles _ _ _).kept
    · exact (stray_settles _ _ _ _).kept
  · exact (jacketReport_settles _ _ _ _).kept
  · exact .refl

/-! ### Line Control -/

theorem setCause_kept (c : Controller) (k : HoldCause) (b : Bool) : Kept c (c.setCause k b) := by
  cases k <;> exact ⟨⟨rfl, rfl, rfl⟩, rfl, rfl⟩

theorem addCause_kept (c : Controller) (k : HoldCause) : Kept c (c.addCause k) := by
  unfold Controller.addCause
  split
  · exact setCause_kept _ _ _
  · unfold Controller.enterHolding
    dsimp only
    refine .trans ?_ (raise_settles _ _ _ _).kept
    refine .trans ?_ (judge_settles _ _).kept
    refine .trans ?_ (foldl_settles jacketHold_settles _ _).kept
    refine .trans ?_ (purge_settles _).kept
    refine Kept.trans (b := { c with line := { c.line with holdFrom := c.line.state, state := .holding } }) ?_ (setCause_kept _ _ _)
    exact ⟨⟨rfl, rfl, rfl⟩, rfl, rfl⟩

theorem setLineState_kept (c : Controller) (s : LineState) : Kept c (c.setLineState s) := ⟨⟨rfl, rfl, rfl⟩, rfl, rfl⟩

/-- What a request other than a TABLE WRITE, a SET DATE and a SET CONFIG leaves alone, RESTART among them. -/
structure RequestKept (c d : Controller) : Prop where
  store : StoreKept c d
  port : PortKept c d

theorem RequestKept.trans {a b c : Controller} (h : RequestKept a b) (k : RequestKept b c) : RequestKept a c :=
  ⟨h.store.trans k.store, h.port.trans k.port⟩

theorem Kept.request {c d : Controller} (h : Kept c d) : RequestKept c d := ⟨h.store, h.port⟩

theorem startLine_kept {c d : Controller} (h : c.startLine = .ok d) : RequestKept c d := by
  unfold Controller.startLine at h
  repeat (split at h; · cases h)
  rw [← Except.ok.inj h]
  exact (((setLineState_kept c .running).trans (judge_settles _ _).kept).trans (jacketPasses_settles _).kept).request

theorem stopLine_kept {c d : Controller} (h : c.stopLine = .ok d) : RequestKept c d := by
  unfold Controller.stopLine at h
  split at h
  · cases h
  · split at h <;> rw [← Except.ok.inj h]
    · exact ((setLineState_kept c .stopped).trans (judge_settles _ _).kept).request
    · exact (((setLineState_kept c .stopping).trans (judge_settles _ _).kept).trans (jacketPasses_settles _).kept).request

theorem resumeState_kept (c : Controller) : Kept c c.resumeState := by
  unfold Controller.resumeState
  split
  · refine .trans ?_ (raise_settles _ _ _ _).kept
    exact ⟨⟨rfl, rfl, rfl⟩, rfl, rfl⟩
  · exact ⟨⟨rfl, rfl, rfl⟩, rfl, rfl⟩

theorem resumeLine_kept {c d : Controller} (h : c.resumeLine = .ok d) : RequestKept c d := by
  unfold Controller.resumeLine at h
  split at h
  · cases h
  · split at h
    · cases h
    · rw [← Except.ok.inj h]
      have k := ((resumeState_kept c).trans (judge_settles false _).kept).trans (arbitrate_settles _).kept
      split
      · exact ((k.trans (foldl_settles jacketResume_settles _ _).kept).trans (jacketPasses_settles _).kept).request
      · exact k.request

theorem LineControl.restart_fixed (l : LineControl) : l.restart.date = l.date ∧ l.restart.items = l.items ∧
    l.restart.causeLineHold = l.causeLineHold ∧ l.restart.causeRing = l.causeRing := by
  rcases l.restart_state with ⟨-, e⟩ | ⟨-, e⟩ | ⟨-, e⟩ <;> rw [e] <;> exact ⟨rfl, rfl, rfl, rfl⟩

theorem restartLine_kept {c d : Controller} (h : c.restartLine = .ok d) : RequestKept c d := by
  unfold Controller.restartLine at h
  split at h
  · cases h
  · rw [← Except.ok.inj h]
    refine .trans ?_ (offerInfeed_settles _ _ _).kept.request
    refine .trans ?_ (foldl_settles restartVent_settles _ _).kept.request
    refine .trans ?_ (afterFreeing_settles _).kept.request
    exact ⟨⟨rfl, c.line.restart_fixed.1, c.line.restart_fixed.2.1⟩, rfl⟩

theorem enableJacket_kept {c d : Controller} {n : JacketNo} (h : c.enableJacket n = .ok d) : RequestKept c d := by
  unfold Controller.enableJacket at h
  repeat (split at h; · cases h)
  rw [← Except.ok.inj h]
  refine .trans ?_ (jacketPass_settles _ _).kept.request
  exact ⟨⟨rfl, rfl, rfl⟩, rfl⟩

theorem disableJacket_kept {c d : Controller} {n : JacketNo} (h : c.disableJacket n = .ok d) : RequestKept c d := by
  unfold Controller.disableJacket at h
  split at h
  · rw [← Except.ok.inj h]; exact ⟨⟨rfl, rfl, rfl⟩, rfl⟩
  · cases h

theorem abortJacket_kept {c d : Controller} {n : JacketNo} (h : c.abortJacket n = .ok d) : RequestKept c d := by
  unfold Controller.abortJacket at h
  split at h
  · rw [← Except.ok.inj h]; exact (ventInto_settles _ _ _).kept.request
  · cases h

theorem releaseSerial_kept {c d : Controller} {serial : Serial} (h : c.releaseSerial serial = .ok d) : RequestKept c d := by
  unfold Controller.releaseSerial at h
  split at h
  · cases h
  · split at h
    · cases h
    · split at h <;> rw [← Except.ok.inj h]
      · exact Kept.refl.request
      · exact (askRelease_settles _ _).kept.request

theorem setEnables_kept {c d : Controller} {l : List Byte} (h : c.setEnables l = .ok d) : RequestKept c d := by
  unfold Controller.setEnables at h
  split at h
  · rw [← Except.ok.inj h]
    have enabled : Kept c (noticeClasses.foldl
        (fun c cls => c.updNotice cls fun s => { s with enable := (l[cls.index.val]?).getD 0 == 1 }) c) :=
      (foldl_settles (fun _ cls => (Change.notice cls _).settles) _ _).kept
    exact (enabled.trans (Change.relabelQueue (fun e => { e with clearedEnable := false }) fun _ => rfl).kept).request
  · cases h

theorem testNotice_kept {c d : Controller} {code : Nat} (h : c.testNotice code = .ok d) : RequestKept c d := by
  unfold Controller.testNotice at h
  split at h
  · cases h
  · rw [← Except.ok.inj h]; exact ((markRaise_settles _ _ _ _ _).trans (offerNotice_settles _ _)).kept.request

theorem onJacket_kept {c d : Controller} {f : JacketNo → Except Reason Controller} {b : Byte}
    (hf : ∀ n d, f n = .ok d → RequestKept c d) (h : onJacket f b = .ok d) : RequestKept c d := by
  unfold onJacket at h
  split at h
  · cases h
  · exact hf _ _ h

theorem setDate_port {c d : Controller} {x : Date} (h : c.setDate x = .ok d) : PortKept c d := by
  unfold Controller.setDate at h
  split at h
  · cases h
  · dsimp only at h
    split at h <;> rw [← Except.ok.inj h] <;> rfl

theorem setDate_tables {c d : Controller} {x : Date} (h : c.setDate x = .ok d) : d.tables = c.tables := by
  unfold Controller.setDate at h
  split at h
  · cases h
  · dsimp only at h
    split at h <;> rw [← Except.ok.inj h]

theorem setConfig_ok {c d : Controller} {code : Nat} {value : List Byte} (h : c.setConfig code value = .ok d) :
    ∃ i, c.line.items.set code value = some i ∧ d = { c with line := { c.line with items := i } } := by
  unfold Controller.setConfig at h
  split at h
  · cases h
  · split at h
    · cases h
    · split at h
      · cases h
      · next i set => exact ⟨i, set, (Except.ok.inj h).symm⟩

/-- A SET CONFIG of the right length is judged by its item (R176, R183). -/
theorem commandAction_config {c d : Controller} {fields : List Byte} (h : c.commandAction 6 fields = .ok d) :
    ∃ (item : Byte) (value : List Byte), fields = item :: value ∧ c.setConfig item.toNat value = .ok d := by
  cases fields with
  | nil => cases h
  | cons item value =>
    refine ⟨item, value, rfl, ?_⟩
    have h : (if value.length = (if item.toNat = 0 then 4 else 2) then c.setConfig item.toNat value
      else .error .badField) = .ok d := h
    by_cases k : value.length = if item.toNat = 0 then 4 else 2
    · rwa [if_pos k] at h
    · rw [if_neg k] at h; cases h

/-- A COMMAND other than SET DATE and SET CONFIG touches no table, date or item. -/
theorem commandAction_kept {c d : Controller} {code : Nat} {fields : List Byte} (h : c.commandAction code fields = .ok d)
    (notDate : code ≠ 5) (notConfig : code ≠ 6) : RequestKept c d := by
  unfold Controller.commandAction at h
  split at h
  · exact startLine_kept h
  · exact stopLine_kept h
  · exact resumeLine_kept h
  · exact restartLine_kept h
  · contradiction
  · contradiction
  · exact onJacket_kept (fun _ _ => enableJacket_kept) h
  · exact onJacket_kept (fun _ _ => disableJacket_kept) h
  · exact onJacket_kept (fun _ _ => abortJacket_kept) h
  · exact releaseSerial_kept h
  · exact setEnables_kept h
  · exact testNotice_kept h
  · cases h

/-- No COMMAND touches a table, nor of the Ring Port more than the queue and the outstanding list. -/
theorem commandAction_port {c d : Controller} {code : Nat} {fields : List Byte} (h : c.commandAction code fields = .ok d) :
    PortKept c d ∧ d.tables = c.tables := by
  by_cases date : code = 5
  · subst date
    unfold Controller.commandAction at h
    split at h
    all_goals first
      | contradiction
      | exact ⟨setDate_port h, setDate_tables h⟩
  · by_cases config : code = 6
    · subst config
      obtain ⟨item, value, -, set⟩ := commandAction_config h
      obtain ⟨i, -, rfl⟩ := setConfig_ok set
      exact ⟨rfl, rfl⟩
    · have k := commandAction_kept h date config
      exact ⟨k.port, k.store.tables⟩

theorem command_port (c : Controller) (p : List Byte) : PortKept c (c.command p).part ∧ (c.command p).part.tables = c.tables := by
  unfold Controller.command
  split
  · exact ⟨rfl, rfl⟩
  · unfold Controller.commandAnswer
    split
    · next h => exact commandAction_port h
    · exact ⟨rfl, rfl⟩

theorem OnlyPlaces.port {c d : Controller} (h : OnlyPlaces c d) : PortKept c d := by
  unfold PortKept
  rw [h.ring]

/-- A record written replaces the tables, and then at most places notices (R36, R179); a step block is replaced only if it is not protected. -/
theorem writeRecord_written {c d : Controller} {i : Nat} {r : TableRecord} (h : c.writeRecord i r = .ok d) :
    ∃ t : Tables, OnlyPlaces (c.setTables t) d ∧
      (t.blocks = c.tables.blocks ∨
        ∃ (hi : i < 96) (x : BlockRecord) (b : Block), c.judgeBlock i x = .ok b ∧ t.blocks = c.tables.blocks.set i b hi) := by
  cases r with
  | type r =>
    simp only [Controller.writeRecord] at h
    split at h
    · obtain ⟨e, -, rfl⟩ := except_map_ok h; exact ⟨_, .refl, .inl rfl⟩
    · cases h
  | window w =>
    simp only [Controller.writeRecord] at h
    split at h
    · obtain ⟨e, -, rfl⟩ := except_map_ok h; exact ⟨_, .refl, .inl rfl⟩
    · cases h
  | defect a =>
    simp only [Controller.writeRecord] at h
    split at h
    · obtain ⟨e, -, rfl⟩ := except_map_ok h; exact ⟨_, .refl, .inl rfl⟩
    · cases h
  | block r =>
    simp only [Controller.writeRecord] at h
    split at h
    · next hi => obtain ⟨b, judged, rfl⟩ := except_map_ok h; exact ⟨_, .refl, .inr ⟨hi, r, b, judged, rfl⟩⟩
    · cases h
  | station r =>
    simp only [Controller.writeRecord] at h
    split at h
    · obtain ⟨e, -, rfl⟩ := except_map_ok h
      split
      · exact ⟨_, offerNotices_onlyPlaces _, .inl rfl⟩
      · exact ⟨_, .refl, .inl rfl⟩
    · cases h

theorem writeRecord_port {c d : Controller} {i : Nat} {r : TableRecord} (h : c.writeRecord i r = .ok d) : PortKept c d := by
  obtain ⟨t, places, -⟩ := writeRecord_written h
  exact places.port

theorem writeRecords_port (first count : Nat) (l : List TableRecord) (c : Controller) (i : Nat) :
    PortKept c (Controller.writeRecords first count c i l).part := by
  induction l generalizing c i with
  | nil => rfl
  | cons r l ih =>
    unfold Controller.writeRecords
    split
    · next h => exact (writeRecord_port h).trans (ih _ _)
    · rfl

theorem tableWrite_port (c : Controller) (p : List Byte) : PortKept c (c.tableWrite p).part := by
  unfold Controller.tableWrite
  split
  · dsimp only
    split
    · rfl
    · split
      · rfl
      · split
        · rfl
        · exact writeRecords_port _ _ _ _ _
  · rfl

/-- A JACKET VIEW writes at most the frozen views (R187). -/
theorem jacketView_part (c : Controller) (p : List Byte) : ∃ f, (c.jacketView p).part = c.setFrozen f := by
  unfold Controller.jacketView
  split
  · split
    · unfold Controller.liveView; split <;> exact ⟨_, rfl⟩
    · split
      · unfold Controller.frozenFirst
        split <;> exact ⟨_, rfl⟩
      · exact ⟨_, rfl⟩
  · split
    · unfold Controller.frozenNext
      split <;> exact ⟨_, rfl⟩
    · exact ⟨_, rfl⟩
  · exact ⟨_, rfl⟩

theorem judgeRequest_port (c : Controller) (p : List Byte) : PortKept c (c.judgeRequest p).part := by
  unfold Controller.judgeRequest
  split
  · rfl
  · split
    · exact tableWrite_port _ _
    · rw [tableRead_part]; rfl
    · exact (command_port _ _).1
    · obtain ⟨f, e⟩ := jacketView_part c ‹List Byte›; rw [e]; rfl
    · rw [recordView_part]; rfl
    · rw [registerList_part]; rfl
    · rfl

/-- After its action a request only answers (R181). -/
theorem request_kept (c : Controller) (source : Nat) (p : List Byte) : Kept (c.judgeRequest p).part (c.request source p) := by
  have answered : Kept (c.judgeRequest p).part (Controller.reply source p (c.judgeRequest p)) := by
    unfold Controller.reply
    dsimp only
    exact (Change.buffer _).kept.trans (offerReply_settles _).kept
  unfold Controller.request
  dsimp only
  split
  · exact answered.trans (offerNotices_settles _).kept
  · exact answered

theorem request_port (c : Controller) (source : Nat) (p : List Byte) : PortKept c (c.request source p) :=
  (judgeRequest_port c p).trans (request_kept c source p).port

/-! ### Reception and the transmitter -/

/-- The Ring Port is the same but for its queue, its outstanding list and its forward buffer. -/
def ReceiverKept (c d : Controller) : Prop :=
  d.ring = { c.ring with queue := d.ring.queue, outstanding := d.ring.outstanding, forward := d.ring.forward }

theorem PortKept.receiver {c d : Controller} (h : PortKept c d) : ReceiverKept c d := by
  unfold PortKept at h
  unfold ReceiverKept
  rw [h]

theorem ReceiverKept.after_forward {c d : Controller} {bytes : List Byte} (h : PortKept (c.placeForward bytes) d) :
    ReceiverKept c d := by
  unfold PortKept at h
  unfold ReceiverKept
  rw [h]
  rfl

theorem passOn_receiver (c : Controller) (f : Frame) : ReceiverKept c (c.passOn f) := by
  unfold Controller.passOn
  split
  · rfl
  · split
    · split
      · exact ReceiverKept.after_forward (bytes := f.markTaken.wire) ((PortKept.refl (c := c.placeForward _)).trans
          (request_port ((c.placeForward f.markTaken.wire).setBuffer .taken) _ _))
      · rfl
    · exact ReceiverKept.after_forward (classify_kept _ _ _ _).port

theorem bypassFrame_receiver (c : Controller) (bytes : List Byte) : ReceiverKept c (c.bypassFrame bytes) := by
  unfold Controller.bypassFrame
  split <;> rfl

theorem accept_receiver (c : Controller) (f : Frame) : ReceiverKept c (c.accept f) := by
  unfold Controller.accept
  split
  · exact (matchReturn_kept _ _ _).port.receiver
  · exact passOn_receiver _ _

theorem receiveFrame_receiver (c : Controller) (f : Frame) : ReceiverKept c (c.receiveFrame f) := by
  unfold Controller.receiveFrame
  split
  · exact bypassFrame_receiver _ _
  · split
    · rfl
    · exact accept_receiver _ _

theorem receiveBytes_receiver (c : Controller) (bytes : List Byte) : ReceiverKept c (c.receiveBytes bytes) := by
  unfold Controller.receiveBytes
  split
  · exact bypassFrame_receiver _ _
  · split
    · rfl
    · exact accept_receiver _ _

end Sys2Proof.Machine
end

section
/-! SUPPORT. The tables and the items stay in their ranges, and protected blocks stay as they are (O58). -/
namespace Sys2Proof.Machine

theorem get_set {α : Type} {k : Nat} (v : Vector α k) (i : Nat) (hi : i < k) (x : α) (j : Fin k) :
    (v.set i x hi).get j = if j.val = i then x else v.get j := by
  simp only [vector_get, Vector.getElem_set, eq_comm]

/-! ### Owner windows (R23, R24) -/

theorem overlaps_comm (a b : Window) : a.overlaps b = b.overlaps a := Bool.and_comm _ _

/-- A test of the places of a vector other than one index (R24, R33). -/
theorem any_zipIdx_false {α : Type} {k : Nat} {v : Vector α k} {i : Nat} {p : α → Bool}
    (h : (v.toList.zipIdx.any fun x => x.2 != i && p x.1) = false) (j : Fin k) (other : j.val ≠ i) : p (v.get j) = false := by
  rw [List.any_eq_false] at h
  have member : (v.get j, j.val) ∈ v.toList.zipIdx := by
    rw [List.mem_zipIdx_iff_getElem?]
    simp [vector_get]
  simpa [other] using h _ member

theorem overlapAt_false {t : Tables} {i : Nat} {w : Window} (h : t.overlapAt i w = false) (j : Fin 16) (other : j.val ≠ i)
    (valid : (t.windows.get j).valid = true) : (t.windows.get j).overlaps w = false := by
  have := any_zipIdx_false (p := fun x : Window => x.valid && x.overlaps w) (by simpa [Tables.overlapAt, Bool.and_assoc] using h) j other
  simpa [valid] using this

/-- A window that may be written is invalid, or in range, aligned and apart from the others (R24). -/
theorem judgeWindow_ok {t : Tables} {i : Nat} {w e : Window} (h : judgeWindow t i w = .ok e) :
    e = .invalid ∨ (8 ≤ e.k ∧ e.k ≤ 24 ∧ e.base % 2 ^ e.k = 0 ∧ t.overlapAt i e = false) := by
  unfold judgeWindow at h
  split at h
  · exact .inl (Except.ok.inj h).symm
  · split at h
    · cases h
    · next range =>
      split at h
      · cases h
      · next aligned =>
        split at h
        · cases h
        · next apart =>
          obtain rfl := Except.ok.inj h
          simp only [inRange, not_or, Bool.not_eq_false, Bool.and_eq_true, decide_eq_true_eq] at range
          exact .inr ⟨range.1.1, range.1.2, Decidable.not_not.mp aligned, by simpa using apart⟩

theorem windowsSound_write {t : Tables} {i : Nat} (hi : i < 16) {w e : Window} (judged : judgeWindow t i w = .ok e)
    (ht : t.WindowsSound) : ({ t with windows := t.windows.set i e hi } : Tables).WindowsSound := by
  obtain ⟨shaped, apart⟩ := ht
  have new : e.valid = true → 8 ≤ e.k ∧ e.k ≤ 24 ∧ e.base % 2 ^ e.k = 0 ∧ t.overlapAt i e = false := fun v => by
    rcases judgeWindow_ok judged with rfl | fits
    · cases v
    · exact fits
  refine ⟨fun j => ?_, fun j k distinct => ?_⟩
  · dsimp only
    rw [get_set]
    split
    · exact fun v => ⟨(new v).1, (new v).2.1, (new v).2.2.1⟩
    · exact shaped j
  · dsimp only
    rw [get_set, get_set]
    split
    · next hj =>
      split
      · next hk => exact (distinct (Fin.ext (hj.trans hk.symm))).elim
      · next hk => exact fun v vk => (overlaps_comm _ _).trans (overlapAt_false (new v).2.2.2 k hk vk)
    · next hj =>
      split
      · next hk => exact fun vj v => overlapAt_false (new v).2.2.2 j hj vj
      · exact apart j k distinct

/-! ### The station map (R33) -/

theorem clashes_comm (a b : Role) : a.clashes b = b.clashes a := by
  have swap {α : Type} [DecidableEq α] (x y : α) : (x == y) = (y == x) := by
    rw [Bool.eq_iff_iff, beq_iff_eq, beq_iff_eq]
    exact eq_comm
  cases a <;> cases b <;> first | rfl | exact swap _ _

/-- A role that may be written is not forbidden at its address and clashes with no other (R33). -/
theorem judgeStation_ok {c : Controller} {i : Nat} {r : StationRecord} {x : Role} (h : c.judgeStation i r = .ok x) :
    (i = 0 ∨ i = 63 ∨ i = c.ring.nodeAddress.toNat → x = .none) ∧ c.tables.roleElsewhere i x = false := by
  unfold Controller.judgeStation at h
  split at h
  · cases h
  · split at h
    · cases h
    · next place =>
      split at h
      · cases h
      · split at h
        · cases h
        · split at h
          · cases h
          · next apart =>
            obtain rfl := Except.ok.inj h
            exact ⟨fun at_ => by_contra fun other => place ⟨at_, other⟩, Bool.eq_false_iff.mpr apart⟩

theorem mapSound_write {c : Controller} {i : Nat} (hi : i < 64) {r : StationRecord} {x : Role} (judged : c.judgeStation i r = .ok x)
    (hc : c.MapSound) : (c.setTables { c.tables with stations := c.tables.stations.set i x hi }).MapSound := by
  obtain ⟨apart, none_⟩ := hc
  obtain ⟨place, elsewhere⟩ := judgeStation_ok judged
  have other (j : Fin 64) (hj : j.val ≠ i) : x.clashes (c.tables.stations.get j) = false :=
    any_zipIdx_false (p := fun y => x.clashes y) (by simpa [Tables.roleElsewhere] using elsewhere) j hj
  refine ⟨fun j k distinct => ?_, fun j at_ => ?_⟩
  · simp only [setTables_tables]
    rw [get_set, get_set]
    split
    · next hj =>
      split
      · next hk => exact (distinct (Fin.ext (hj.trans hk.symm))).elim
      · next hk => exact other k hk
    · next hj =>
      split
      · next hk => exact (clashes_comm _ _).trans (other j hj)
      · exact apart j k distinct
  · simp only [setTables_tables]
    rw [get_set]
    split
    · next hj => exact place (hj ▸ at_)
    · exact none_ j at_

/-! ### Types, blocks, items (R20, R21, R28, R176) -/

theorem judgeType_ok {t : Tables} {r : TypeRecord} {e : TypeEntry} (h : judgeType t r = .ok e) :
    e = .invalid ∨ (e.valid = true ∧ e.fieldsInRange = true) := by
  unfold judgeType at h
  split at h
  · exact .inl (Except.ok.inj h).symm
  · split at h
    · cases h
    · next x read =>
      split at h
      · cases h
      · next range =>
        split at h
        · cases h
        · obtain rfl := Except.ok.inj h
          simp only [TypeRecord.entry?, Option.map_eq_some_iff] at read
          obtain ⟨size, -, rfl⟩ := read
          exact .inr ⟨rfl, by simpa using range⟩

theorem judgeBlock_ok {c : Controller} {i : Nat} {r : BlockRecord} {b : Block} (h : c.judgeBlock i r = .ok b) :
    b.fieldsOk = true ∧ c.blockProtected i = false := by
  unfold Controller.judgeBlock at h
  split at h
  · cases h
  · split at h
    · cases h
    · next fits =>
      split at h
      · cases h
      · next free =>
        obtain rfl := Except.ok.inj h
        exact ⟨by simpa using fits, by simpa using free⟩

/-- A two-byte item value in a range (R176). -/
def rangedValue (low high : Nat) : List Byte → Option Nat
  | [a, b] => if low ≤ read2 a b ∧ read2 a b ≤ high then some (read2 a b) else none
  | _ => none

theorem rangedValue_inRange {low high : Nat} {value : List Byte} {v : Nat} (h : rangedValue low high value = some v) :
    inRange low high v = true := by
  unfold rangedValue at h
  split at h
  · split at h
    · next fits => obtain rfl := Option.some.inj h; simpa [inRange] using fits
    · cases h
  · cases h

/-- A value set by an item's range is the ranged value put into the item. -/
theorem put_ranged (low high : Nat) (value : List Byte) (put : Nat → Items) :
    (match value with
      | [a, b] => if low ≤ read2 a b ∧ read2 a b ≤ high then some (put (read2 a b)) else none
      | _ => none) = (rangedValue low high value).map put := by
  unfold rangedValue
  split
  · split <;> rfl
  · rfl

theorem set_plantCode (i : Items) (value : List Byte) :
    i.set 0 value = if value.length = 4 ∧ value.all isAlnum = true then some { i with plantCode := value } else none := rfl
theorem set_returnTime (i : Items) (value : List Byte) :
    i.set 1 value = (rangedValue 5 250 value).map fun v => { i with returnTime := v } := by rw [← put_ranged]; rfl
theorem set_sampleAgeLimit (i : Items) (value : List Byte) :
    i.set 2 value = (rangedValue 100 10000 value).map fun v => { i with sampleAgeLimit := v } := by rw [← put_ranged]; rfl
theorem set_advanceWindow (i : Items) (value : List Byte) :
    i.set 3 value = (rangedValue 0 11 value).map fun v => { i with advanceWindow := v } := by rw [← put_ranged]; rfl
theorem set_thermalLimit (i : Items) (value : List Byte) :
    i.set 4 value = (rangedValue 1 50 value).map fun v => { i with thermalLimit := v } := by rw [← put_ranged]; rfl
theorem set_zeroThreshold (i : Items) (value : List Byte) :
    i.set 5 value = (rangedValue 10 1000 value).map fun v => { i with zeroThreshold := v } := by rw [← put_ranged]; rfl
theorem set_unknown (i : Items) (code : Nat) (value : List Byte) : i.set (code + 6) value = none := rfl

theorem itemsSound_set {i j : Items} {code : Nat} {value : List Byte} (h : i.set code value = some j) (hi : i.Sound) : j.Sound := by
  obtain ⟨plant, return_, age, window, thermal, zero⟩ := hi
  match code with
  | 0 =>
    rw [set_plantCode] at h
    split at h
    · next fits => obtain rfl := Option.some.inj h; exact ⟨fits, return_, age, window, thermal, zero⟩
    · cases h
  | 1 =>
    rw [set_returnTime] at h
    obtain ⟨v, read, rfl⟩ := Option.map_eq_some_iff.mp h
    exact ⟨plant, rangedValue_inRange read, age, window, thermal, zero⟩
  | 2 =>
    rw [set_sampleAgeLimit] at h
    obtain ⟨v, read, rfl⟩ := Option.map_eq_some_iff.mp h
    exact ⟨plant, return_, rangedValue_inRange read, window, thermal, zero⟩
  | 3 =>
    rw [set_advanceWindow] at h
    obtain ⟨v, read, rfl⟩ := Option.map_eq_some_iff.mp h
    exact ⟨plant, return_, age, rangedValue_inRange read, thermal, zero⟩
  | 4 =>
    rw [set_thermalLimit] at h
    obtain ⟨v, read, rfl⟩ := Option.map_eq_some_iff.mp h
    exact ⟨plant, return_, age, window, rangedValue_inRange read, zero⟩
  | 5 =>
    rw [set_zeroThreshold] at h
    obtain ⟨v, read, rfl⟩ := Option.map_eq_some_iff.mp h
    exact ⟨plant, return_, age, window, thermal, rangedValue_inRange read⟩
  | code + 6 => rw [set_unknown] at h; cases h

/-! ### The moves -/

theorem Change.store {a b : Controller} (h : Change a b) : StoreKept a b := h.kept.store

theorem Move.nodeAddress {adm : Prop} {a b : Controller} (h : Move adm a b) : b.ring.nodeAddress = a.ring.nodeAddress := by
  cases h with
  | change k => exact k.kept.port.nodeAddress
  | lock b => rw [setLock_eq]
  | complete => rw [completeTransmission_eq]
  | cause k b => rw [setCause_ring]
  | hold k state => rw [setCause_eq]; rfl
  | _ => rfl

theorem Move.windowsSound {adm : Prop} {a b : Controller} (h : Move adm a b) (ha : a.tables.WindowsSound) :
    b.tables.WindowsSound := by
  cases h with
  | change k => rwa [k.store.tables]
  | window i hi w e judged => exact windowsSound_write hi judged ha
  | lock b => rwa [setLock_eq]
  | complete => rwa [completeTransmission_eq]
  | cause k b => rwa [setCause_eq]
  | hold k state => rwa [setCause_eq]
  | _ => exact ha

theorem mapSound_of {c d : Controller} (tables : d.tables = c.tables) (address : d.ring.nodeAddress = c.ring.nodeAddress)
    (hc : c.MapSound) : d.MapSound := by
  unfold Controller.MapSound
  rwa [tables, address]

theorem Move.mapSound {adm : Prop} {a b : Controller} (h : Move adm a b) (ha : a.MapSound) : b.MapSound := by
  have address := h.nodeAddress
  cases h with
  | change k => exact mapSound_of k.store.tables address ha
  | station i hi r x judged => exact mapSound_write hi judged ha
  | lock b => exact mapSound_of (by rw [setLock_eq]) address ha
  | complete => exact mapSound_of (by rw [completeTransmission_eq]) address ha
  | cause k b => exact mapSound_of (by rw [setCause_eq]) address ha
  | hold k state => exact mapSound_of (by rw [setCause_eq]; rfl) address ha
  | _ => exact ha

theorem Move.typesSound {adm : Prop} {a b : Controller} (h : Move adm a b) (ha : a.tables.TypesSound) : b.tables.TypesSound := by
  cases h with
  | change k => rwa [k.store.tables]
  | type i hi r e judged =>
    intro j
    simp only [setTables_tables]
    rw [get_set]
    split
    · exact judgeType_ok judged
    · exact ha j
  | lock b => rwa [setLock_eq]
  | complete => rwa [completeTransmission_eq]
  | cause k b => rwa [setCause_eq]
  | hold k state => rwa [setCause_eq]
  | _ => exact ha

theorem Move.blocksSound {adm : Prop} {a b : Controller} (h : Move adm a b) (ha : a.tables.BlocksSound) : b.tables.BlocksSound := by
  cases h with
  | change k => rwa [k.store.tables]
  | block i hi r x judged =>
    intro j
    simp only [setTables_tables]
    rw [get_set]
    split
    · exact (judgeBlock_ok judged).1
    · exact ha j
  | lock b => rwa [setLock_eq]
  | complete => rwa [completeTransmission_eq]
  | cause k b => rwa [setCause_eq]
  | hold k state => rwa [setCause_eq]
  | _ => exact ha

theorem Move.itemsSound {adm : Prop} {a b : Controller} (h : Move adm a b) (ha : a.line.items.Sound) : b.line.items.Sound := by
  cases h with
  | change k => rwa [k.store.items]
  | items code value i state set => exact itemsSound_set set ha
  | lock b => rwa [setLock_eq]
  | complete => rwa [completeTransmission_eq]
  | cause k b => rwa [setCause_eq]
  | hold k state => rwa [setCause_eq]
  | restart idle =>
    show a.line.restart.items.Sound
    rwa [a.line.restart_fixed.2.1]
  | _ => exact ha

/-! ### The power-on tables -/

theorem get_replicate {α : Type} {k : Nat} (x : α) (i : Fin k) : (Vector.replicate k x).get i = x := by
  rw [vector_get, Vector.getElem_replicate]

theorem powerOn_windowsSound : Tables.powerOn.WindowsSound := by
  have invalid (i : Fin 16) : (Tables.powerOn.windows.get i).valid = false := by
    rw [show Tables.powerOn.windows = Vector.replicate 16 .invalid from rfl, get_replicate]; rfl
  exact ⟨fun i v => by simp [invalid i] at v, fun i _ _ v => by simp [invalid i] at v⟩

theorem powerOn_mapSound (a : NodeAddress) : (Controller.powerOn a).MapSound := by
  have empty (i : Fin 64) : (Controller.powerOn a).tables.stations.get i = .none := get_replicate Role.none i
  exact ⟨fun i j _ => by rw [empty i]; rfl, fun i _ => empty i⟩

theorem powerOn_typesSound : Tables.powerOn.TypesSound := fun i => .inl (get_replicate TypeEntry.invalid i)

theorem powerOn_blocksSound : Tables.powerOn.BlocksSound := fun i => by
  rw [show Tables.powerOn.blocks = Vector.replicate 96 .powerOn from rfl, get_replicate]
  decide

theorem powerOn_itemsSound : Items.powerOn.Sound := by
  unfold Items.Sound
  decide

/-! ### Protected blocks (R31) -/

theorem blockProtected_iff (c : Controller) (i : Nat) :
    c.blockProtected i = true ↔
      ∃ n : JacketNo, (c.jacket n).state.protects = true ∧ (c.tables.chainAt (c.jacket n).programStart).1.contains i = true := by
  have all (n : JacketNo) : n ∈ jacketNumbers := by revert n; decide
  simp only [Controller.blockProtected, List.any_eq_true, Bool.and_eq_true]
  exact ⟨fun ⟨n, _, h⟩ => ⟨n, h⟩, fun ⟨n, h⟩ => ⟨n, all n, h⟩⟩

/-- A protected block stays as it is and stays protected. -/
def Protects (k : Fin 96) (c d : Controller) : Prop :=
  c.blockProtected k.val = true → d.blockProtected k.val = true ∧ d.tables.blocks.get k = c.tables.blocks.get k

theorem Protects.refl {k : Fin 96} {c : Controller} : Protects k c c := fun h => ⟨h, rfl⟩

theorem Protects.trans {k : Fin 96} {a b c : Controller} (h : Protects k a b) (g : Protects k b c) : Protects k a c := fun p => by
  obtain ⟨pb, eb⟩ := h p
  obtain ⟨pc, ec⟩ := g pb
  exact ⟨pc, ec.trans eb⟩

theorem blockProtected_congr {c d : Controller} (jackets : d.jackets = c.jackets) (blocks : d.tables.blocks = c.tables.blocks) (i : Nat) :
    d.blockProtected i = c.blockProtected i := by
  unfold Controller.blockProtected Controller.jacket Tables.chainAt
  rw [jackets, blocks]

/-- The write of a block outside every protected chain leaves those chains as they are (R31). -/
theorem protects_setBlock {c d : Controller} {i : Nat} {hi : i < 96} {b : Block} (free : c.blockProtected i = false)
    (jackets : d.jackets = c.jackets) (blocks : d.tables.blocks = c.tables.blocks.set i b hi) (k : Fin 96) : Protects k c d := by
  intro protected_
  have apart {j : Nat} (h : c.blockProtected j = true) : j ≠ i := fun e => by rw [e, free] at h; cases h
  refine ⟨?_, by rw [blocks, get_set, if_neg (apart protected_)]⟩
  obtain ⟨n, state, chained⟩ := (blockProtected_iff c k).mp protected_
  refine (blockProtected_iff d k).mpr ⟨n, ?_⟩
  rw [Controller.jacket, jackets]
  refine ⟨state, ?_⟩
  rw [chainAt_contains] at chained ⊢
  obtain ⟨from_, near, inside, links⟩ := chained
  refine ⟨from_, near, inside, fun j hj hk => ?_⟩
  have before : c.blockProtected j = true := (blockProtected_iff c j).mpr ⟨n, state, (chainAt_contains _ _ _).mpr
    ⟨hj, by omega, by omega, fun x h1 h2 => links x h1 (by omega)⟩⟩
  have same : d.tables.blockAt j = c.tables.blockAt j := by
    rw [Tables.blockAt, Tables.blockAt, blocks, Vector.getElem?_set_ne hi (apart before).symm]
  rw [same]
  exact links j hj hk

theorem writeRecord_protects {c d : Controller} {i : Nat} {r : TableRecord} (h : c.writeRecord i r = .ok d) (k : Fin 96) :
    Protects k c d := by
  obtain ⟨t, places, same | ⟨hi, x, b, judged, set⟩⟩ := writeRecord_written h
  · intro p
    have blocks : d.tables.blocks = c.tables.blocks := by rw [places.tables]; exact same
    exact ⟨(blockProtected_congr (c := c) places.jackets blocks k).trans p, by rw [blocks]⟩
  · exact protects_setBlock (judgeBlock_ok judged).2 places.jackets (by rw [places.tables]; exact set) k

theorem writeRecords_protects (k : Fin 96) (first count : Nat) (l : List TableRecord) (c : Controller) (i : Nat) :
    Protects k c (Controller.writeRecords first count c i l).part := by
  induction l generalizing c i with
  | nil => exact .refl
  | cons r l ih =>
    unfold Controller.writeRecords
    split
    · next h => exact (writeRecord_protects h k).trans (ih _ _)
    · exact .refl

theorem tableWrite_protects (k : Fin 96) (c : Controller) (p : List Byte) : Protects k c (c.tableWrite p).part := by
  unfold Controller.tableWrite
  split
  · dsimp only
    split
    · exact .refl
    · split
      · exact .refl
      · split
        · exact .refl
        · exact writeRecords_protects _ _ _ _ _ _
  · exact .refl

/-- A protected block stays as it is. -/
def BlockStays (k : Fin 96) (c d : Controller) : Prop :=
  c.blockProtected k.val = true → d.tables.blocks.get k = c.tables.blocks.get k

theorem BlockStays.of_tables {k : Fin 96} {c d : Controller} (h : d.tables = c.tables) : BlockStays k c d := fun _ => by rw [h]

theorem Kept.blockStays {k : Fin 96} {c d : Controller} (h : Kept c d) : BlockStays k c d := .of_tables h.store.tables

theorem judgeRequest_blockStays (k : Fin 96) (c : Controller) (p : List Byte) : BlockStays k c (c.judgeRequest p).part := by
  unfold Controller.judgeRequest
  split
  · exact .of_tables rfl
  · split
    · exact fun h => (tableWrite_protects k c _ h).2
    · rw [tableRead_part]; exact .of_tables rfl
    · exact .of_tables (command_port _ _).2
    · obtain ⟨f, e⟩ := jacketView_part c ‹List Byte›; rw [e]; exact .of_tables rfl
    · rw [recordView_part]; exact .of_tables rfl
    · rw [registerList_part]; exact .of_tables rfl
    · exact .of_tables rfl

theorem request_blockStays (k : Fin 96) (c : Controller) (source : Nat) (p : List Byte) : BlockStays k c (c.request source p) :=
  fun h => by rw [(request_kept c source p).store.tables]; exact judgeRequest_blockStays k c p h

theorem accept_blockStays (k : Fin 96) (c : Controller) (f : Frame) : BlockStays k c (c.accept f) := by
  unfold Controller.accept
  split
  · exact (matchReturn_kept _ _ _).blockStays
  · unfold Controller.passOn
    split
    · exact .of_tables rfl
    · split
      · split
        · exact request_blockStays k ((c.placeForward f.markTaken.wire).setBuffer .taken) _ _
        · exact .of_tables rfl
      · exact .of_tables (classify_kept (c.placeForward f.wire) _ _ _).store.tables

theorem bypassFrame_tables (c : Controller) (bytes : List Byte) : (c.bypassFrame bytes).tables = c.tables := by
  unfold Controller.bypassFrame
  split <;> rfl

theorem receiveFrame_blockStays (k : Fin 96) (c : Controller) (f : Frame) : BlockStays k c (c.receiveFrame f) := by
  unfold Controller.receiveFrame
  split
  · exact .of_tables (bypassFrame_tables _ _)
  · split
    · exact .of_tables rfl
    · exact accept_blockStays _ _ _

theorem receiveBytes_blockStays (k : Fin 96) (c : Controller) (bytes : List Byte) : BlockStays k c (c.receiveBytes bytes) := by
  unfold Controller.receiveBytes
  split
  · exact .of_tables (bypassFrame_tables _ _)
  · split
    · exact .of_tables rfl
    · exact accept_blockStays _ _ _

theorem ite_kept {c d : Controller} {p : Prop} [Decidable p] (h : Kept c d) : Kept c (if p then d else c) := by
  split
  · exact h
  · exact .refl

theorem either_kept {c d e : Controller} {p : Prop} [Decidable p] (h : Kept c d) (k : Kept c e) : Kept c (if p then d else e) := by
  split
  · exact h
  · exact k

theorem ite_tables {c d : Controller} {p : Prop} [Decidable p] (h : d.tables = c.tables) :
    (if p then d else c).tables = c.tables := by
  split
  · exact h
  · rfl

theorem flushOutstanding_kept (c : Controller) : Kept c c.flushOutstanding := popLost_kept _ _

/-- The ring's change to DOWN writes the status, adds the cause and empties the outstanding list (R14). -/
theorem ringGoesDown_kept (c : Controller) : Kept (c.setRingStatus .down) c.ringGoesDown := by
  unfold Controller.ringGoesDown
  dsimp only
  split
  · exact .refl
  · exact (addCause_kept _ _).trans (flushOutstanding_kept _)

theorem ringGoesUp_kept (c : Controller) : Kept (c.setRingStatus .up) c.ringGoesUp := by
  unfold Controller.ringGoesUp
  dsimp only
  split
  · exact .refl
  · exact (setCause_kept _ _ _).trans (raise_settles _ _ _ _).kept

/-- The transmitter, the streak and the sequence number, and the queue and the outstanding list, are all of the Ring Port that a start of a frame
writes (R9, R10). -/
def TransmitterOnly (c d : Controller) : Prop :=
  d.ring = { c.ring with queue := d.ring.queue, outstanding := d.ring.outstanding, transmitter := d.ring.transmitter,
                         streak := d.ring.streak, sequence := d.ring.sequence }

theorem TransmitterOnly.port {c e d : Controller} (h : TransmitterOnly c e) (k : PortKept e d) : TransmitterOnly c d := by
  unfold TransmitterOnly PortKept at *
  rw [k, h]

theorem startOwn_writes (c : Controller) (e : QueueEntry) :
    TransmitterOnly c (c.startOwn e) ∧ StoreKept c (c.startOwn e) ∧ (c.startOwn e).responder.frozen = c.responder.frozen := by
  unfold Controller.startOwn
  generalize started : ({ c with ring := { c.ring with
      queue := queueRest c.ring.queue, outstanding := c.ring.outstanding ++ [c.outEntry e],
      transmitter := .own (c.ownFrame e).wire, streak := 0, sequence := (c.ring.sequence + 1) % 256 } } : Controller) = d
  have k := (afterFreeing_settles d).kept
  have port : TransmitterOnly c d := by rw [← started]; rfl
  have store : StoreKept c d := by rw [← started]; exact ⟨rfl, rfl, rfl⟩
  have frozen : d.responder.frozen = c.responder.frozen := by rw [← started]
  exact ⟨port.port k.port, store.trans k.store, k.frozen.trans frozen⟩

theorem transmit_writes (c : Controller) :
    TransmitterOnly c c.transmit ∧ StoreKept c c.transmit ∧ c.transmit.responder.frozen = c.responder.frozen := by
  have forwarded (n : Nat) : TransmitterOnly c (c.startForwarded n) ∧ StoreKept c (c.startForwarded n) ∧
      (c.startForwarded n).responder.frozen = c.responder.frozen := ⟨rfl, ⟨rfl, rfl, rfl⟩, rfl⟩
  unfold Controller.transmit
  split
  · exact ⟨rfl, .refl, rfl⟩
  · split
    · exact ⟨rfl, .refl, rfl⟩
    · exact startOwn_writes _ _
    · exact forwarded _
    · split
      · exact startOwn_writes _ _
      · exact forwarded _

/-! ### The effect of a command, by its kind -/

/-- The frame a command's frame row stands for (log entry 5). -/
def frameOf (c : Controller) : Instr → Option Frame
  | .returnMatching destination kind sequence payload trailer =>
    some { header := { destination, source := c.ring.nodeAddress.setWidth 8, sequence, trailer }, kind, payload }
  | .manageNotTaken h p | .manageUnsupported h p => some (manageFrame h p)
  | .entryTag h p => some { header := h, kind := 1, payload := p }
  | .massReading h p => some { header := h, kind := 2, payload := p }
  | .visualFindings h p => some { header := h, kind := 3, payload := p }
  | .jacketArrival h p => some { header := h, kind := 4, payload := p }
  | .jacketSample h p => some { header := h, kind := 5, payload := p }
  | .jacketClear h p => some { header := h, kind := 6, payload := p }
  | .stampReport h p => some { header := h, kind := 7, payload := p }
  | .scrapReport h p => some { header := h, kind := 8, payload := p }
  | .tableWrite h p => some (manageFrame h (1 :: p))
  | .tableRead h p => some (manageFrame h (2 :: p))
  | .start h p => some (manageFrame h (3 :: 1 :: p))
  | .stop h p => some (manageFrame h (3 :: 2 :: p))
  | .resume h p => some (manageFrame h (3 :: 3 :: p))
  | .restart h p => some (manageFrame h (3 :: 4 :: p))
  | .setDate h p => some (manageFrame h (3 :: 5 :: p))
  | .setConfig h p => some (manageFrame h (3 :: 6 :: p))
  | .jacketEnable h p => some (manageFrame h (3 :: 7 :: p))
  | .jacketDisable h p => some (manageFrame h (3 :: 8 :: p))
  | .jacketAbort h p => some (manageFrame h (3 :: 9 :: p))
  | .release h p => some (manageFrame h (3 :: 10 :: p))
  | .setNoticeEnables h p => some (manageFrame h (3 :: 11 :: p))
  | .testNotice h p => some (manageFrame h (3 :: 12 :: p))
  | .jacketView h p => some (manageFrame h (4 :: p))
  | .frozenFirst h p => some (manageFrame h (4 :: 1 :: p))
  | .frozenNext h p => some (manageFrame h (4 :: 2 :: p))
  | .recordView h p => some (manageFrame h (5 :: p))
  | .registerList h p => some (manageFrame h (6 :: p))
  | .commandUnsupported h p => some (manageFrame h (3 :: p))
  | _ => none

/-- What a command other than POWER_ON makes of the part. -/
inductive Effect (c : Controller) : Instr → Controller → Prop
  | frame {i : Instr} (f : Frame) (h : frameOf c i = some f) : Effect c i (c.receiveFrame f)
  | discarded (b : List Byte) : Effect c (.frameDiscarded b) (c.receiveBytes b)
  | forwarded (b : List Byte) : Effect c (.forwardedFrame b) (c.receiveBytes b)
  | hold : Effect c .holdAsserted (if c.bypass then c else c.addCause .lineHold)
  | unhold : Effect c .holdReleased (if c.bypass then c else c.setCause .lineHold false)
  | lockLost : Effect c .rxLockLost (c.setLock false)
  | lockRegained : Effect c .rxLockRegained (c.setLock true)
  | ringDown : Effect c .ringDown (if c.lossReached then c.ringGoesDown else c)
  | ringUp : Effect c .ringUp (if c.lockReached then c.ringGoesUp else c)
  | start : Effect c .transmitterStart c.transmit
  | complete : Effect c .transmissionComplete c.completeTransmission
  | expire : Effect c .returnTimeout c.expire
  | timeLimit (n : JacketNo) : Effect c (.blockTimeLimit n) (if c.timeLimitReached n then c.earlyEnd n .timeout else c)
  | dwellEnd (n : JacketNo) : Effect c (.dwellEnd n) (if c.dwellReached n then c.completeBlock n else c)
  | silent (n : JacketNo) : Effect c (.sampleAgeLimit n) (if c.silent n then c.faultJacket n .silent else c)
  | ventLimit (n : JacketNo) : Effect c (.ventLimit n) (if c.ventLimitReached n then c.faultJacket n .ventTimeout else c)

/-- A command other than POWER_ON answers a next state and has one of these effects. -/
theorem exec_effect (i : Instr) (s : State) (power : isPowerOn i = false) :
    ∃ d, exec i s = .next (s.withPart d) ∧ Effect s.part i d := by
  cases i with
  | powerOn => cases power
  | frameDiscarded b => exact ⟨_, rfl, .discarded b⟩
  | forwardedFrame b => exact ⟨_, rfl, .forwarded b⟩
  | holdAsserted => exact ⟨_, rfl, .hold⟩
  | holdReleased => exact ⟨_, rfl, .unhold⟩
  | rxLockLost => exact ⟨_, rfl, .lockLost⟩
  | rxLockRegained => exact ⟨_, rfl, .lockRegained⟩
  | ringDown => exact ⟨_, rfl, .ringDown⟩
  | ringUp => exact ⟨_, rfl, .ringUp⟩
  | transmitterStart => exact ⟨_, rfl, .start⟩
  | transmissionComplete => exact ⟨_, rfl, .complete⟩
  | returnTimeout => exact ⟨_, rfl, .expire⟩
  | blockTimeLimit n => exact ⟨_, rfl, .timeLimit n⟩
  | dwellEnd n => exact ⟨_, rfl, .dwellEnd n⟩
  | sampleAgeLimit n => exact ⟨_, rfl, .silent n⟩
  | ventLimit n => exact ⟨_, rfl, .ventLimit n⟩
  | _ => exact ⟨_, rfl, .frame _ rfl⟩

theorem effect_of_exec {i : Instr} {s t : State} (h : exec i s = .next t) (power : isPowerOn i = false) :
    Effect s.part i t.part := by
  obtain ⟨d, e, effect⟩ := exec_effect i s power
  rw [← Host.Outcome.next.inj (e.symm.trans h)]
  exact effect

theorem Effect.blockStays {c d : Controller} {i : Instr} (h : Effect c i d) (k : Fin 96) : BlockStays k c d := by
  cases h with
  | frame f => exact receiveFrame_blockStays _ _ _
  | discarded b => exact receiveBytes_blockStays _ _ _
  | forwarded b => exact receiveBytes_blockStays _ _ _
  | hold => exact (either_kept .refl (addCause_kept _ _)).blockStays
  | unhold => exact (either_kept .refl (setCause_kept _ _ _)).blockStays
  | lockLost => exact .of_tables (by rw [setLock_eq])
  | lockRegained => exact .of_tables (by rw [setLock_eq])
  | ringDown => exact .of_tables (ite_tables (ringGoesDown_kept _).store.tables)
  | ringUp => exact .of_tables (ite_tables (ringGoesUp_kept _).store.tables)
  | start => exact .of_tables (transmit_writes _).2.1.tables
  | complete => exact .of_tables (by rw [completeTransmission_eq])
  | expire => exact (expire_kept _).blockStays
  | timeLimit n => exact (ite_kept (earlyEnd_settles _ _ _).kept).blockStays
  | dwellEnd n => exact (ite_kept (completeBlock_settles _ _).kept).blockStays
  | silent n => exact (ite_kept (faultJacket_settles _ _ _).kept).blockStays
  | ventLimit n => exact (ite_kept (faultJacket_settles _ _ _).kept).blockStays

/-- Settles O58: every move keeps the tables and the items in their ranges; and the only write of a step block asks first whether the block is
protected. -/
theorem tablesStaySound : Obligations.TablesStaySound :=
  ⟨⟨kept_of_moves (fun _ _ => Move.windowsSound) fun _ => powerOn_windowsSound,
      kept_of_moves (fun _ _ => Move.mapSound) powerOn_mapSound,
      kept_of_moves (fun _ _ => Move.typesSound) fun _ => powerOn_typesSound,
      kept_of_moves (fun _ _ => Move.blocksSound) fun _ => powerOn_blocksSound,
      kept_of_moves (fun _ _ => Move.itemsSound) fun _ => powerOn_itemsSound⟩,
    fun _ _ _ k h power => (effect_of_exec h power).blockStays k⟩

end Sys2Proof.Machine
end

section
/-! SUPPORT. In bypass every block stays at its power-on state (O59); the verification fields and the quiet jackets (O57, first laws); power-on, the
idle step and the pins (O1, O2, O5). -/
namespace Sys2Proof.Machine

/-! ### The verification fields and the quiet jackets (R93, R144) -/

theorem Verification.take_verified (v : Verification) (date : Option Date) (o : EvalOutcome) (h : v.verified = true → v.date = date) :
    (v.take date o).verified = true → (v.take date o).date = date := by
  unfold Verification.take
  split
  · exact h
  · exact h
  · exact fun _ => rfl
  · exact fun set => nomatch set
  · exact h

theorem Verification.take_count (v : Verification) (date : Option Date) (o : EvalOutcome) : (v.take date o).count ≤ 3 := by
  unfold Verification.take
  split
  · exact Nat.zero_le 3
  · exact Nat.zero_le 3
  · exact Nat.zero_le 3
  · exact Nat.zero_le 3
  · exact Nat.min_le_left _ _

theorem verifiedToday_of {c d : Controller} (fields : d.verification = c.verification) (date : d.line.date = c.line.date)
    (hc : c.VerifiedToday) : d.VerifiedToday := by
  unfold Controller.VerifiedToday Controller.verif
  rwa [fields, date]

theorem Change.verifiedToday {a b : Controller} (h : Change a b) (ha : a.VerifiedToday) : b.VerifiedToday := by
  cases h with
  | verify n o =>
    intro m
    rw [verif_updVerif]
    split
    · exact Verification.take_verified _ _ _ (ha n)
    · exact ha m
  | _ => exact ha

theorem Move.verifiedToday {adm : Prop} {a b : Controller} (h : Move adm a b) (ha : a.VerifiedToday) : b.VerifiedToday := by
  cases h with
  | change k => exact k.verifiedToday ha
  | unverify n =>
    intro m
    rw [verif_updVerif]
    split
    · exact fun set => nomatch set
    · exact ha m
  | date d valid same => exact fun m set => (ha m set).trans same
  | newDate d valid =>
    intro m set
    simp [Controller.verif, vector_get] at set
  | lock b => exact verifiedToday_of (by rw [setLock_eq]) (by rw [setLock_eq]) ha
  | complete => exact verifiedToday_of (by rw [completeTransmission_eq]) (by rw [completeTransmission_eq]) ha
  | cause k b => exact verifiedToday_of (by rw [setCause_eq]) (by simp) ha
  | hold k state => exact verifiedToday_of (c := a) (by rw [setCause_eq]; rfl) (by rw [setCause_eq]; rfl) ha
  | restart idle => exact verifiedToday_of (c := a) rfl a.line.restart_fixed.1 ha
  | _ => exact ha

theorem countsBounded_of {c d : Controller} (fields : d.verification = c.verification) (hc : c.CountsBounded) : d.CountsBounded := by
  unfold Controller.CountsBounded Controller.verif
  rwa [fields]

theorem Change.countsBounded {a b : Controller} (h : Change a b) (ha : a.CountsBounded) : b.CountsBounded := by
  cases h with
  | verify n o =>
    intro m
    rw [verif_updVerif]
    split
    · exact Verification.take_count _ _ _
    · exact ha m
  | _ => exact ha

theorem Move.countsBounded {adm : Prop} {a b : Controller} (h : Move adm a b) (ha : a.CountsBounded) : b.CountsBounded := by
  cases h with
  | change k => exact k.countsBounded ha
  | unverify n =>
    intro m
    rw [verif_updVerif]
    split
    · exact Nat.zero_le 3
    · exact ha m
  | newDate d valid =>
    intro m
    simpa [Controller.verif, vector_get] using ha m
  | lock b => exact countsBounded_of (by rw [setLock_eq]) ha
  | complete => exact countsBounded_of (by rw [completeTransmission_eq]) ha
  | cause k b => exact countsBounded_of (by rw [setCause_eq]) ha
  | hold k state => exact countsBounded_of (c := a) (by rw [setCause_eq]; rfl) ha
  | _ => exact ha

theorem Jacket.tick_quiet (up : Bool) (j : Jacket) (h : j.Quiet) : (j.tick up).Quiet := by
  unfold Jacket.tick
  split <;> exact h

theorem Jacket.restart_quiet (j : Jacket) : j.restart.Quiet := by
  unfold Jacket.restart
  dsimp only
  split
  · exact fun s => s.elim (fun e => nomatch e) fun e => nomatch e
  · exact fun s => s.elim (fun e => nomatch e) fun e => nomatch e
  · exact fun _ => ⟨rfl, rfl, rfl⟩

theorem jacket_mapped {c d : Controller} {f : Jacket → Jacket} (h : d.jackets = c.jackets.map f) (n : JacketNo) :
    d.jacket n = f (c.jacket n) := by
  simp [Controller.jacket, vector_get, h]

theorem jacketsQuiet_of {c d : Controller} (h : d.jackets = c.jackets) (hc : c.JacketsQuiet) : d.JacketsQuiet := by
  unfold Controller.JacketsQuiet Controller.jacket
  rwa [h]

theorem Change.jacketsQuiet {a b : Controller} (h : Change a b) (ha : a.JacketsQuiet) : b.JacketsQuiet := by
  cases h with
  | jacket n f keeps =>
    intro m
    rw [jacket_updJacket]
    split
    · exact keeps _ (ha n)
    · exact ha m
  | _ => exact ha

theorem Move.jacketsQuiet {adm : Prop} {a b : Controller} (h : Move adm a b) (ha : a.JacketsQuiet) : b.JacketsQuiet := by
  cases h with
  | change k => exact k.jacketsQuiet ha
  | tick =>
    intro n
    rw [jacket_mapped (c := a) rfl]
    exact Jacket.tick_quiet _ _ (ha n)
  | restart idle =>
    intro n
    rw [jacket_mapped (c := a) rfl]
    exact Jacket.restart_quiet _
  | lock b => exact jacketsQuiet_of (by rw [setLock_eq]) ha
  | complete => exact jacketsQuiet_of (by rw [completeTransmission_eq]) ha
  | cause k b => exact jacketsQuiet_of (by rw [setCause_eq]) ha
  | hold k state => exact jacketsQuiet_of (c := a) (by rw [setCause_eq]; rfl) ha
  | _ => exact ha

theorem powerOn_jacket (a : NodeAddress) (n : JacketNo) : (Controller.powerOn a).jacket n = .powerOn := get_replicate _ n

theorem powerOn_verif (a : NodeAddress) (n : JacketNo) : (Controller.powerOn a).verif n = .powerOn := get_replicate _ n

theorem powerOn_notice (a : NodeAddress) (k : NoticeClass) : (Controller.powerOn a).notice k = .powerOn := get_replicate _ _

theorem powerOn_verifiedToday (a : NodeAddress) : (Controller.powerOn a).VerifiedToday := fun n set => by
  rw [powerOn_verif] at set
  cases set

theorem powerOn_countsBounded (a : NodeAddress) : (Controller.powerOn a).CountsBounded := fun n => by
  rw [powerOn_verif]
  exact Nat.zero_le 3

theorem powerOn_jacketsQuiet (a : NodeAddress) : (Controller.powerOn a).JacketsQuiet := fun n => by
  rw [powerOn_jacket]
  exact fun _ => ⟨rfl, rfl, rfl⟩

/-! ### Bypass (R18) -/

theorem bypass_of_nodeAddress {c d : Controller} (h : d.ring.nodeAddress = c.ring.nodeAddress) : d.bypass = c.bypass := by
  unfold Controller.bypass
  rw [h]

theorem bypassQuiet_of_ring {c d : Controller} (h : d = { c with ring := d.ring }) (address : d.ring.nodeAddress = c.ring.nodeAddress)
    (queue : d.ring.queue = c.ring.queue) (outstanding : d.ring.outstanding = c.ring.outstanding)
    (sequence : d.ring.sequence = c.ring.sequence) (hc : c.BypassQuiet) : d.BypassQuiet := by
  intro on
  have quiet := hc ((bypass_of_nodeAddress address).symm.trans on)
  rw [← queue, ← outstanding, ← sequence] at quiet
  rw [h]
  exact quiet

/-- In bypass no own frame is a candidate and no jacket is at work, so a command reaches the receiver, the forward buffer and the transmitter alone. -/
theorem Effect.bypassQuiet {c d : Controller} {i : Instr} (h : Effect c i d) (on : c.bypass = true) (hc : c.BypassQuiet) :
    d.BypassQuiet := by
  obtain ⟨-, outstanding, -, -, -, -, jackets, -⟩ := hc on
  have idle (n : JacketNo) : c.jacket n = .powerOn := by rw [Controller.jacket, jackets, get_replicate]
  have passed (b : List Byte) : (c.bypassFrame b).BypassQuiet := by
    unfold Controller.bypassFrame
    split
    · exact bypassQuiet_of_ring (c := c) rfl rfl rfl rfl rfl hc
    · exact hc
  cases h with
  | frame f => rw [Controller.receiveFrame, if_pos on]; exact passed _
  | discarded b => rw [Controller.receiveBytes, if_pos on]; exact passed _
  | forwarded b => rw [Controller.receiveBytes, if_pos on]; exact passed _
  | hold => rw [if_pos on]; exact hc
  | unhold => rw [if_pos on]; exact hc
  | lockLost => rw [setLock_eq]; exact hc
  | lockRegained => rw [setLock_eq]; exact hc
  | ringDown =>
    split
    · rw [Controller.ringGoesDown, if_pos on]; exact hc
    · exact hc
  | ringUp =>
    split
    · rw [Controller.ringGoesUp, if_pos on]; exact hc
    · exact hc
  | start =>
    have none_ : c.ownCandidate = none := by simp [Controller.ownCandidate, on]
    unfold Controller.transmit
    rw [none_]
    split
    · exact hc
    · split
      · exact hc
      · contradiction
      · exact hc
      · contradiction
  | complete => rw [completeTransmission_eq]; exact hc
  | expire =>
    have nothing : c.expire = c := by rw [Controller.expire, outstanding]; rfl
    rwa [nothing]
  | timeLimit n => rw [if_neg (by simp [Controller.timeLimitReached, idle n, Jacket.powerOn, JacketState.isRunning])]; exact hc
  | dwellEnd n => rw [if_neg (by simp [Controller.dwellReached, idle n, Jacket.powerOn])]; exact hc
  | silent n => rw [if_neg (by simp [Controller.silent, idle n, Jacket.powerOn, JacketState.pressing])]; exact hc
  | ventLimit n => rw [if_neg (by simp [Controller.ventLimitReached, idle n, Jacket.powerOn])]; exact hc

theorem exec_nodeAddress {i : Instr} {s t : State} (h : exec i s = .next t) (power : isPowerOn i = false) :
    t.part.ring.nodeAddress = s.part.ring.nodeAddress :=
  (exec_acts h power).moves.keep (p := fun c => c.ring.nodeAddress = s.part.ring.nodeAddress)
    (fun _ _ move same => move.nodeAddress.trans same) rfl

theorem powerOn_bypassQuiet (a : NodeAddress) : (Controller.powerOn a).BypassQuiet :=
  fun _ => ⟨rfl, rfl, rfl, rfl, rfl, rfl, rfl, rfl, rfl, rfl, rfl⟩

theorem poweredOn_bypassQuiet (straps : NodeAddress) (hold : Bool) : (poweredOn straps hold).BypassQuiet := by
  have acts := poweredOn_acts (adm := True) straps hold
  have address : (poweredOn straps hold).ring.nodeAddress = (Controller.powerOn straps).ring.nodeAddress :=
    acts.moves.keep (p := fun c => c.ring.nodeAddress = straps) (fun _ _ move same => move.nodeAddress.trans same) rfl
  intro on
  have on' := (bypass_of_nodeAddress address).symm.trans on
  have unchanged : poweredOn straps hold = .powerOn straps := by simp [poweredOn, on']
  rw [unchanged]
  exact powerOn_bypassQuiet straps on'

theorem tick_bypassQuiet {c : Controller} (hc : c.BypassQuiet) : c.tick.BypassQuiet := by
  intro on
  obtain ⟨queue, outstanding, sequence, tables, records, mark, jackets, rest⟩ := hc on
  refine ⟨queue, outstanding, sequence, tables, records, mark, ?_, rest⟩
  show c.jackets.map _ = _
  rw [jackets, Vector.map_replicate]
  rfl

/-- Settles O59: no command but POWER_ON changes the latched address, and in bypass the commands reach no other block. -/
theorem bypassStaysQuiet : Obligations.BypassStaysQuiet := by
  intro s t h quiet
  unfold step at h
  split at h
  · rw [← Host.Outcome.next.inj h]; exact tick_bypassQuiet quiet
  · next c rest _ =>
    cases power : isPowerOn c with
    | true =>
      cases c <;> try cases power
      rw [← Host.Outcome.next.inj h]
      exact poweredOn_bypassQuiet _ _
    | false =>
      intro on
      have before := (bypass_of_nodeAddress (exec_nodeAddress h power)).symm.trans on
      exact (effect_of_exec h power).bypassQuiet before quiet on

/-! ### The step, power-on and the pins -/

/-- Settles O1: it is the definition of a step. -/
theorem stepRunsFrontCommand : Obligations.StepRunsFrontCommand := fun _ _ _ => rfl

theorem exec_next (i : Instr) (s : State) : ∃ c : Controller, exec i s = .next (s.withPart c) := by
  cases power : isPowerOn i with
  | false =>
    obtain ⟨d, e, -⟩ := exec_effect i s power
    exact ⟨d, e⟩
  | true =>
    cases i <;> try cases power
    exact ⟨_, rfl⟩

/-- Settles O2: every command answers with another part alone, and the idle step is one tick of the jackets' timers. -/
theorem everyStepAnswersNext : Obligations.EveryStepAnswersNext := by
  refine ⟨exec_next, fun p => ⟨p.tick, rfl, rfl, fun n pressing => ?_, fun n resting => ?_, rfl, rfl, rfl, rfl, rfl, rfl, rfl⟩⟩
  · rw [jacket_mapped (c := p) rfl, Jacket.tick, if_pos pressing]
    simp only [beq_iff_eq]
  · rw [jacket_mapped (c := p) rfl, Jacket.tick, resting]
    rfl

/-- Settles O5: each pin command writes its own field, or finds nothing to change. -/
theorem pinEventsAlone : Obligations.PinEventsAlone := by
  refine ⟨fun s => ⟨fun on => ?_, fun off holding => ?_⟩, fun s => ⟨fun on => ?_, fun off => ?_⟩,
    fun s => ⟨fun locked => ⟨?_, ?_⟩, fun lost => ⟨?_, ?_⟩⟩⟩
  · simp [exec, execHoldAsserted, on, State.withPart]
  · simp [exec, execHoldAsserted, off, Controller.addCause, holding, Controller.setCause]
  · simp [exec, execHoldReleased, on, State.withPart]
  · simp [exec, execHoldReleased, off, Controller.setCause]
  · simp [exec, execRxLockLost, Controller.setLock, locked]
  · simp [exec, execRxLockRegained, Controller.setLock, locked, State.withPart]
  · simp [exec, execRxLockRegained, Controller.setLock, lost]
  · simp [exec, execRxLockLost, Controller.setLock, lost, State.withPart]

end Sys2Proof.Machine
end

section
/-! SUPPORT. What the owed arbitration, the withdrawals and the offers leave alone (R8): jackets but for their owed commands, verification, tables;
the records but for the frames they owe, and but for those whose pending release completes; the line, but for a drain that ends. -/
namespace Sys2Proof.Machine

/-- A record without the frames it owes: what the arbitration leaves of it. -/
def Record.bare (r : Record) : Record := { r with owedOrders := [], resultOwed := false }

/-- A record whose release is not pending. -/
def Record.stays (r : Record) : Bool := !r.releasePending

/-- A STOPPING line whose register has emptied becomes STOPPED; otherwise the line is the same (R58, R171). -/
def Drains (c d : Controller) : Prop :=
  d.line = c.line ∨ (c.line.state = .stopping ∧ d.line = { c.line with state := .stopped } ∧ d.records = [])

/-- What offers, withdrawals and the owed arbitration do. -/
structure Serves (c d : Controller) : Prop where
  jackets : SameButOwed c d
  verification : d.verification = c.verification
  tables : d.tables = c.tables
  records : (d.records.map Record.bare).Sublist (c.records.map Record.bare)
  standing : c.SlotsDistinct → (d.records.map Record.bare).filter Record.stays = (c.records.map Record.bare).filter Record.stays
  line : Drains c d

theorem SameButOwed.refl {c : Controller} : SameButOwed c c := fun _ => rfl

theorem Serves.slotsDistinct {c d : Controller} (h : Serves c d) (hc : c.SlotsDistinct) : d.SlotsDistinct := by
  have bared (l : List Record) : (l.map Record.bare).map Record.slot = l.map Record.slot := by
    rw [List.map_map]; rfl
  have sub := (h.records.map Record.slot)
  rw [bared, bared] at sub
  exact List.Nodup.sublist sub hc

theorem Serves.refl {c : Controller} : Serves c c := ⟨.refl, rfl, rfl, .refl _, fun _ => rfl, .inl rfl⟩

theorem Serves.trans {a b c : Controller} (h : Serves a b) (k : Serves b c) : Serves a c where
  jackets := h.jackets.trans k.jackets
  verification := k.verification.trans h.verification
  tables := k.tables.trans h.tables
  records := k.records.trans h.records
  standing distinct := (k.standing (h.slotsDistinct distinct)).trans (h.standing distinct)
  line := by
    rcases h.line with same | ⟨state, stopped, empty⟩
    · rcases k.line with same' | ⟨state', stopped', empty'⟩
      · exact .inl (same'.trans same)
      · exact .inr ⟨by rw [← same]; exact state', by rw [stopped', same], empty'⟩
    · rcases k.line with same' | ⟨state', stopped', empty'⟩
      · have sub := k.records
        rw [empty, List.map_nil, List.sublist_nil, List.map_eq_nil_iff] at sub
        exact .inr ⟨state, same'.trans stopped, sub⟩
      · rw [stopped] at state'; cases state'

/-- What leaves records, jackets, tables, verification and the line as they are. -/
theorem Serves.of_same {c d : Controller} (jackets : d.jackets = c.jackets) (verification : d.verification = c.verification)
    (tables : d.tables = c.tables) (records : d.records.map Record.bare = c.records.map Record.bare) (line : d.line = c.line) :
    Serves c d :=
  ⟨.of_jackets jackets, verification, tables, by rw [records], fun _ => by rw [records], .inl line⟩

theorem OnlyPlaces.serves {c d : Controller} (h : OnlyPlaces c d) : Serves c d :=
  .of_same h.jackets h.verification h.tables (by rw [h.records]) h.line

theorem judge_serves (freed : Bool) (c : Controller) : Serves c (c.judge freed) := (judge_onlyPlaces freed c).serves

theorem raise_serves (c : Controller) (cls : NoticeClass) (subject cause : Nat) : Serves c (c.raise cls subject cause) :=
  (raise_onlyPlaces c cls subject cause).serves

theorem setQueue_serves (c : Controller) (q : List QueueEntry) : Serves c (c.setQueue q) := .of_same rfl rfl rfl rfl rfl

theorem setOutstanding_serves (c : Controller) (l : List OutEntry) : Serves c (c.setOutstanding l) := .of_same rfl rfl rfl rfl rfl

theorem setMark_serves (c : Controller) (m : InfeedMark) : Serves c (c.setMark m) := .of_same rfl rfl rfl rfl rfl

theorem updNotice_serves (c : Controller) (cls : NoticeClass) (f : Notice → Notice) : Serves c (c.updNotice cls f) :=
  .of_same rfl rfl rfl rfl rfl

theorem updOwed_serves (c : Controller) (n : JacketNo) (f : Jacket → Option Command) :
    Serves c (c.updJacket n fun j => { j with owedCommand := f j }) :=
  ⟨updOwed_sameButOwed c n f, rfl, rfl, .refl _, fun _ => rfl, .inl rfl⟩

/-- An update of the frames a record owes. -/
theorem updRecord_serves (c : Controller) (slot : Nat) (f : Record → Record) (h : ∀ r, (f r).bare = r.bare) :
    Serves c (c.updRecord slot f) := .of_same rfl rfl rfl (map_updRecord c slot f Record.bare h) rfl

theorem foldl_serves {α : Type} {f : Controller → α → Controller} (h : ∀ c a, Serves c (f c a)) (l : List α) :
    ∀ c, Serves c (l.foldl f c) := by
  induction l with
  | nil => exact fun _ => .refl
  | cons a l ih => exact fun c => (h c a).trans (ih _)

theorem foldr_serves {α : Type} {f : α → Controller → Controller} (h : ∀ c a, Serves c (f a c)) (l : List α) :
    ∀ c, Serves c (l.foldr f c) := by
  induction l with
  | nil => exact fun _ => .refl
  | cons a l ih => exact fun c => (ih c).trans (h _ a)

/-! ### Offers -/

theorem offerCommand_serves (c : Controller) (n : JacketNo) (k : Command) : Serves c (c.offerCommand n k) := by
  unfold Controller.offerCommand
  split
  · exact ((enqueue_onlyPlaces _ _ _ _ _).serves.trans (updOwed_serves _ n fun _ => none)).trans (judge_serves _ _)
  · exact updOwed_serves c n fun _ => some k

theorem offerOwedCommand_serves (urgent : Bool) (c : Controller) (n : JacketNo) : Serves c (c.offerOwedCommand urgent n) := by
  unfold Controller.offerOwedCommand
  split
  · split
    · exact offerCommand_serves _ _ _
    · exact .refl
  · exact .refl

theorem offerOrders_serves (slot : Nat) (serial : Serial) (l : List Order) (c : Controller) :
    Serves c (c.offerOrders slot serial l) := by
  induction l generalizing c with
  | nil => exact .refl
  | cons o rest ih =>
    unfold Controller.offerOrders
    split
    · refine .trans ?_ (ih _)
      refine .trans ?_ (judge_serves _ _)
      exact (updRecord_serves c slot (fun r => { r with owedOrders := rest }) fun _ => rfl).trans
        (enqueue_onlyPlaces _ _ _ _ _).serves
    · exact .refl

theorem putResult_serves (c : Controller) (slot : Nat) (serial : Serial) (r : LastResult) :
    Serves c (c.putResult slot serial r) := by
  unfold Controller.putResult
  refine .trans ?_ (judge_serves _ _)
  exact (enqueue_onlyPlaces c _ _ _ _).serves.trans
    (updRecord_serves _ slot (fun r => { r with resultOwed := false }) fun _ => rfl)

/-! ### Withdrawals and removals -/

theorem withdrawLoop_serves {arb : Controller → Controller} (ha : ∀ c, Serves c (arb c)) (p : QueueEntry → Bool) (n : Nat)
    (c : Controller) : Serves c (Controller.withdrawLoop arb p n c) := by
  induction n generalizing c with
  | zero => exact .refl
  | succ n ih =>
    unfold Controller.withdrawLoop
    split
    · exact (((setQueue_serves c _).trans (judge_serves _ _)).trans (ha _)).trans (ih _)
    · exact .refl

theorem finishDrain_serves (c : Controller) : Serves c c.finishDrain := by
  unfold Controller.finishDrain
  split
  · next ended =>
    refine .trans ?_ (judge_serves _ _)
    refine .trans ?_ (raise_serves _ _ _ _)
    exact ⟨.refl, rfl, rfl, .refl _, fun _ => rfl, .inr ⟨ended.1, rfl, ended.2⟩⟩
  · exact .refl

/-- The records outside a slot. -/
theorem dropSlot_bare (l : List Record) (slot : Nat) :
    ((l.filter fun r => r.slot != slot).map Record.bare) = (l.map Record.bare).filter fun r => r.slot != slot := by
  rw [List.filter_map]
  rfl

/-- The removal of a record whose release was pending (R58, R59). -/
theorem removeWith_serves {arb : Controller → Controller} (ha : ∀ c, Serves c (arb c)) (slot : Nat) (c : Controller)
    (pending : c.SlotsDistinct → ∀ r ∈ c.records, r.slot = slot → r.releasePending = true) :
    Serves c (Controller.removeWith arb slot c) := by
  unfold Controller.removeWith
  dsimp only
  refine .trans ?_ (finishDrain_serves _)
  refine .trans ?_ (judge_serves _ _)
  refine .trans ?_ (withdrawLoop_serves ha _ _ _)
  refine .trans ?_ (setOutstanding_serves _ _)
  refine .trans ?_ (setQueue_serves _ _)
  refine ⟨.refl, rfl, rfl, List.filter_sublist.map _, fun distinct => ?_, .inl rfl⟩
  show ((c.records.filter fun r => r.slot != slot).map Record.bare).filter Record.stays = _
  rw [dropSlot_bare, List.filter_filter]
  refine List.filter_congr fun x hx => ?_
  obtain ⟨r, hr, rfl⟩ := List.mem_map.mp hx
  by_cases at_ : r.slot = slot
  · simp [Record.bare, Record.stays, at_, pending distinct r hr at_]
  · simp [Record.bare, at_]

/-- The records of one slot are one (R40). -/
theorem eq_of_recordAt {c : Controller} (distinct : c.SlotsDistinct) {slot : Nat} {r x : Record} (h : c.recordAt slot = some r)
    (hx : x ∈ c.records) (at_ : x.slot = slot) : x = r := by
  have := recordAt_of_mem distinct hx
  rw [at_, h] at this
  exact (Option.some.inj this).symm

theorem recordAt_slot {c : Controller} {slot : Nat} {r : Record} (h : c.recordAt slot = some r) : r.slot = slot := by
  have := List.find?_some h
  simpa using this

theorem recordAt_mem {c : Controller} {slot : Nat} {r : Record} (h : c.recordAt slot = some r) : r ∈ c.records :=
  List.mem_of_find?_eq_some h

/-- A record of d has the bare form of a record of c. -/
theorem Serves.from_record {c d : Controller} (h : Serves c d) {x : Record} (hx : x ∈ d.records) :
    ∃ r ∈ c.records, r.bare = x.bare :=
  List.mem_map.mp (h.records.subset (List.mem_map_of_mem hx))

theorem pending_of_recordAt {c : Controller} {slot : Nat} {r : Record} (h : c.recordAt slot = some r) (distinct : c.SlotsDistinct)
    (pending : r.releasePending = true) {d : Controller} (serves : Serves c d) :
    ∀ x ∈ d.records, x.slot = slot → x.releasePending = true := by
  intro x hx at_
  obtain ⟨y, hy, same⟩ := serves.from_record hx
  have slots : y.bare.slot = x.bare.slot := by rw [same]
  obtain rfl := eq_of_recordAt distinct h hy (slots.trans at_)
  have flags : y.bare.releasePending = x.bare.releasePending := by rw [same]
  exact flags.symm.trans pending

theorem offerRecordWith_serves {arb : Controller → Controller} (ha : ∀ c, Serves c (arb c)) (c : Controller) (slot : Nat) :
    Serves c (Controller.offerRecordWith arb c slot) := by
  unfold Controller.offerRecordWith
  split
  · exact .refl
  · next r found =>
    split
    · split
      · exact .refl
      · split
        · dsimp only
          have put := putResult_serves c slot r.serial ‹LastResult›
          split
          · next pending =>
            by_cases distinct : c.SlotsDistinct
            · exact put.trans (removeWith_serves ha slot _ fun _ => pending_of_recordAt found distinct pending put)
            · have notDistinct : ¬ (c.putResult slot r.serial ‹LastResult›).SlotsDistinct := by
                have same : (c.putResult slot r.serial ‹LastResult›).records.map Record.slot = c.records.map Record.slot := by
                  unfold Controller.putResult
                  rw [(judge_onlyPlaces _ _).records]
                  exact map_updRecord (c.enqueue _ _) slot _ Record.slot fun _ => rfl
                unfold Controller.SlotsDistinct at distinct ⊢
                rwa [same]
              exact put.trans (removeWith_serves ha slot _ fun d => (notDistinct d).elim)
          · exact put.trans (offerOrders_serves _ _ _ _)
        · exact .refl
    · exact offerOrders_serves _ _ _ _

/-! ### The owed arbitration -/

theorem arbitrateWith_serves {inner : Controller → Controller} (hi : ∀ c, Serves c (inner c)) (c : Controller) :
    Serves c (Controller.arbitrateWith inner c) := by
  unfold Controller.arbitrateWith
  dsimp only
  refine .trans ?_ (offerNotices_onlyPlaces _).serves
  refine .trans ?_ (offerReply_onlyPlaces _).serves
  refine .trans ?_ (offerOwedInfeed_onlyPlaces _ _).serves
  refine .trans ?_ (foldl_serves (offerOwedCommand_serves false) _ _)
  refine .trans ?_ (foldl_serves (offerRecordWith_serves hi) _ _)
  refine .trans ?_ (offerOwedInfeed_onlyPlaces _ _).serves
  exact foldl_serves (offerOwedCommand_serves true) _ _

theorem arbitrateDepth_serves (n : Nat) (c : Controller) : Serves c (Controller.arbitrateDepth n c) := by
  induction n generalizing c with
  | zero => exact .refl
  | succ n ih => exact arbitrateWith_serves ih c

theorem arbitrate_serves (c : Controller) : Serves c c.arbitrate := arbitrateDepth_serves _ c

theorem afterFreeing_serves (c : Controller) : Serves c c.afterFreeing := (judge_serves true c).trans (arbitrate_serves _)

theorem withdraw_serves (c : Controller) (p : QueueEntry → Bool) : Serves c (c.withdraw p) :=
  withdrawLoop_serves arbitrate_serves _ _ _

theorem offerRecord_serves (c : Controller) (slot : Nat) : Serves c (c.offerRecord slot) :=
  offerRecordWith_serves arbitrate_serves c slot

theorem makeOrders_serves (c : Controller) (slot : Nat) (l : List Order) : Serves c (c.makeOrders slot l) := by
  unfold Controller.makeOrders
  exact (updRecord_serves c slot (fun r => { r with owedOrders := r.owedOrders ++ l }) fun _ => rfl).trans (offerRecord_serves _ _)

theorem cancelOrders_serves (c : Controller) (slot : Nat) : Serves c (c.cancelOrders slot) := by
  unfold Controller.cancelOrders
  dsimp only
  refine .trans ?_ (withdraw_serves _ _)
  refine .trans ?_ (setOutstanding_serves _ _)
  exact updRecord_serves c slot (fun r => { r with owedOrders := [] }) fun _ => rfl

theorem dropCommands_serves (c : Controller) (n : JacketNo) (p : Command → Bool) : Serves c (c.dropCommands n p) :=
  (updOwed_serves c n fun j => j.owedCommand.filter fun k => !p k).trans (withdraw_serves _ _)

theorem makeVent_serves (c : Controller) (n : JacketNo) : Serves c (c.makeVent n) :=
  (offerCommand_serves c n .vent).trans (dropCommands_serves _ _ _)

theorem makeResult_serves (c : Controller) (slot : Nat) (serial : Serial) (owed : Bool) :
    Serves c (c.makeResult slot serial owed) := by
  unfold Controller.makeResult
  dsimp only
  refine .trans ?_ (offerRecord_serves _ _)
  refine .trans ?_ (updRecord_serves _ slot (fun r => { r with resultOwed := true }) fun _ => rfl)
  split
  · exact raise_serves _ _ _ _
  · exact .refl

/-! ### The hold purge -/

theorem restoreOwed_serves (e : QueueEntry) (c : Controller) : Serves c (Controller.restoreOwed e c) := by
  unfold Controller.restoreOwed
  split
  · split
    · exact updRecord_serves c _ (fun r => { r with owedOrders := _ :: r.owedOrders }) fun _ => rfl
    · exact .refl
  · next n _ k _ _ =>
    unfold Controller.restoreCommand
    have same : (fun j : Jacket => if k.standsIn j.state = true ∧ j.owedCommand = none then { j with owedCommand := some k } else j) =
        fun j => { j with owedCommand := if k.standsIn j.state = true ∧ j.owedCommand = none then some k else j.owedCommand } := by
      funext j
      split <;> rfl
    rw [same]
    exact updOwed_serves c n _
  · unfold Controller.restoreInfeed
    split
    · exact setMark_serves _ _
    · exact .refl
  · exact .refl

theorem restoreNotice_serves (l : List QueueEntry) (c : Controller) (cls : NoticeClass) : Serves c (Controller.restoreNotice l c cls) := by
  unfold Controller.restoreNotice
  dsimp only
  split
  · exact .refl
  · exact updNotice_serves _ _ _

theorem dropRecordless_serves (c : Controller) (e : QueueEntry) : Serves c (c.dropRecordless e) := by
  unfold Controller.dropRecordless
  split
  · exact raise_serves _ _ _ _
  · exact .refl

theorem purge_serves (c : Controller) : Serves c c.purge := by
  unfold Controller.purge
  dsimp only
  split
  · exact .refl
  · refine .trans ?_ (afterFreeing_serves _)
    refine .trans ?_ (foldl_serves dropRecordless_serves _ _)
    refine .trans ?_ (foldl_serves (restoreNotice_serves _) _ _)
    refine .trans ?_ (foldr_serves (fun c e => restoreOwed_serves e c) _ _)
    exact setQueue_serves _ _

end Sys2Proof.Machine
end

section
/-! SUPPORT. The law of R83, that a record and its jacket name each other, with what it may leave out while one event is under way; and the updates
of a jacket and of a record that keep it. -/
namespace Sys2Proof.Machine

/-! ### Pairs -/

/-- The state of the record that a jacket in this state serves (R93). -/
def JacketState.stage : JacketState → Option RecordState
  | .awaiting => some .routed
  | .running _ | .recovering _ | .heldVented => some .testing
  | .unloading => some .unloading
  | .disabled | .idle | .fault _ => none

/-- The serial a jacket has of its cylinder: awaited before it arrives, loaded after. -/
def Jacket.cylinder (j : Jacket) : Option Serial := if j.state = .awaiting then j.awaited else j.loaded

/-- A record's state in which its release may be pending (R59, R60). -/
def RecordState.leavable (s : RecordState) : Prop := s = .leaving ∨ s = .scrapping ∨ s = .manualHeld

/-- A record's state that names a jacket (R83). -/
def RecordState.bound (s : RecordState) : Prop := s = .routed ∨ s = .testing

theorem pairs_iff {c : Controller} {n : JacketNo} {r : Record} :
    c.Pairs n r ↔ r ∈ c.records ∧ r.jacket = some n ∧ (c.jacket n).slot = some r.slot ∧
      (c.jacket n).state.stage = some r.state ∧ (c.jacket n).cylinder = some r.serial := by
  unfold Controller.Pairs Jacket.cylinder
  cases (c.jacket n).state <;> simp [JacketState.stage, eq_comm]

theorem serves_iff_stage (s : JacketState) : s.serves = true ↔ s.stage.isSome = true ∧ s ≠ .recovering .restart := by
  cases s with
  | recovering reason => cases reason <;> simp [JacketState.serves, JacketState.stage]
  | _ => simp [JacketState.serves, JacketState.stage]

/-- The law of R83, but for the jackets in X, which may serve no record, and the records in the slots of Y, which may name no jacket. -/
structure PairedBut (X : JacketNo → Prop) (Y : Nat → Prop) (c : Controller) : Prop where
  sound : c.RegisterSound
  pending : ∀ r ∈ c.records, r.releasePending = true → r.state.leavable
  records : ∀ r ∈ c.records, r.state.bound → Y r.slot ∨ ∃ n : JacketNo, c.Pairs n r
  jackets : ∀ n : JacketNo, (c.jacket n).state.serves = true → X n ∨ ∃ r : Record, c.Pairs n r
  restarted : ∀ n : JacketNo, (c.jacket n).state = .recovering .restart → (c.jacket n).slot = none

/-- Nothing is left out. -/
def noJacket : JacketNo → Prop := fun _ => False
/-- Nothing is left out. -/
def noSlot : Nat → Prop := fun _ => False

theorem paired_iff {c : Controller} : c.Paired ↔ PairedBut noJacket noSlot c := by
  constructor
  · rintro ⟨sound, pending, records, jackets, restarted⟩
    exact ⟨sound, pending, fun r hr b => .inr (records r hr b), fun n s => .inr (jackets n s), restarted⟩
  · rintro ⟨sound, pending, records, jackets, restarted⟩
    exact ⟨sound, pending, fun r hr b => (records r hr b).resolve_left id, fun n s => (jackets n s).resolve_left id, restarted⟩

variable {X X' : JacketNo → Prop} {Y Y' : Nat → Prop} {c d : Controller} {n m : JacketNo} {r x : Record}

theorem PairedBut.weaken (h : PairedBut X Y c) (hX : ∀ n, X n → X' n) (hY : ∀ s, Y s → Y' s) : PairedBut X' Y' c :=
  ⟨h.sound, h.pending, fun r hr b => (h.records r hr b).imp_left (hY _), fun n s => (h.jackets n s).imp_left (hX n), h.restarted⟩

theorem PairedBut.distinct (h : PairedBut X Y c) : c.SlotsDistinct := h.sound.2.2.1

theorem eq_of_slot (distinct : c.SlotsDistinct) (hr : r ∈ c.records) (hx : x ∈ c.records) (h : r.slot = x.slot) : r = x :=
  eq_of_recordAt distinct (recordAt_of_mem distinct hx) hr h

/-- A jacket names one record. -/
theorem pairs_unique (distinct : c.SlotsDistinct) (h : c.Pairs n r) (k : c.Pairs n x) : r = x := by
  obtain ⟨hr, -, slot, -⟩ := pairs_iff.mp h
  obtain ⟨hx, -, slot', -⟩ := pairs_iff.mp k
  exact eq_of_slot distinct hr hx (Option.some.inj (slot.symm.trans slot'))

/-- A record names one jacket. -/
theorem pairs_jacket (h : c.Pairs n r) (k : c.Pairs m r) : n = m :=
  Option.some.inj ((pairs_iff.mp h).2.1.symm.trans (pairs_iff.mp k).2.1)

theorem Controller.Pairs.mem (h : c.Pairs n r) : r ∈ c.records := (pairs_iff.mp h).1

theorem Controller.Pairs.slot (h : c.Pairs n r) : (c.jacket n).slot = some r.slot := (pairs_iff.mp h).2.2.1

theorem stage_cases {s : JacketState} {t : RecordState} (h : s.stage = some t) : t = .routed ∨ t = .testing ∨ t = .unloading := by
  cases s <;> simp_all [JacketState.stage]

/-- A record that a jacket serves is ROUTED, TESTING or UNLOADING, so its release is not pending. -/
theorem PairedBut.notPending (h : PairedBut X Y c) (p : c.Pairs n r) : r.releasePending = false := by
  obtain ⟨hr, -, -, stage, -⟩ := pairs_iff.mp p
  by_contra pending
  have leavable := h.pending r hr (by simpa using pending)
  unfold RecordState.leavable at leavable
  rcases stage_cases stage with e | e | e <;> simp [e] at leavable

/-- The record a jacket names is the one in its slot. -/
theorem PairedBut.served (h : PairedBut X Y c) (p : c.Pairs n r) : c.served n = some r := by
  unfold Controller.served
  rw [p.slot]
  exact recordAt_of_mem h.distinct p.mem

theorem PairedBut.servedSlot (p : c.Pairs n r) : c.servedSlot n = r.slot := by
  unfold Controller.servedSlot
  rw [p.slot]
  rfl

/-! ### What does not touch the law -/

/-- What the law asks of a jacket. -/
def Jacket.view (j : Jacket) : Option RecordState × Bool × Option Serial × Option Nat :=
  (j.state.stage, decide (j.state = .recovering .restart), j.cylinder, j.slot)

/-- What the law asks of a record. -/
def Record.view (r : Record) : Nat × Serial × RecordState × Option JacketNo × Bool :=
  (r.slot, r.serial, r.state, r.jacket, r.releasePending)

theorem view_record (h : r.view = x.view) :
    r.slot = x.slot ∧ r.serial = x.serial ∧ r.state = x.state ∧ r.jacket = x.jacket ∧ r.releasePending = x.releasePending := by
  simpa [Record.view] using h

theorem view_jacket {j k : Jacket} (h : j.view = k.view) :
    j.state.stage = k.state.stage ∧ (j.state = .recovering .restart ↔ k.state = .recovering .restart) ∧
      j.cylinder = k.cylinder ∧ j.slot = k.slot := by
  simpa [Jacket.view] using h

theorem view_serves {j k : Jacket} (h : j.view = k.view) : j.state.serves = k.state.serves := by
  obtain ⟨stage, restart, -⟩ := view_jacket h
  rw [Bool.eq_iff_iff, serves_iff_stage, serves_iff_stage, stage, Ne, Ne, restart]

theorem pairs_of_view (jacket : (d.jacket n).view = (c.jacket n).view) (hx : x ∈ d.records) (record : x.view = r.view)
    (h : c.Pairs n r) : d.Pairs n x := by
  obtain ⟨-, names, slot, stage, cylinder⟩ := pairs_iff.mp h
  obtain ⟨slot', serial', state', jacket', -⟩ := view_record record
  obtain ⟨stageD, -, cylinderD, slotD⟩ := view_jacket jacket
  exact pairs_iff.mpr ⟨hx, jacket'.trans names, by rw [slotD, slot, slot'], by rw [stageD, stage, state'],
    by rw [cylinderD, cylinder, serial']⟩

theorem registerSound_of_views (sub : (d.records.map Record.view).Sublist (c.records.map Record.view)) (h : c.RegisterSound) :
    d.RegisterSound := by
  obtain ⟨bound, serials, slots, inside⟩ := h
  have viewed {α : Type} (g : Nat × Serial × RecordState × Option JacketNo × Bool → α) (l : List Record) :
      (l.map Record.view).map g = l.map fun r => g r.view := by rw [List.map_map]; rfl
  have serial := sub.map fun v => v.2.1
  have slot := sub.map fun v => v.1
  rw [viewed, viewed] at serial slot
  refine ⟨?_, List.Nodup.sublist serial serials, List.Nodup.sublist slot slots, fun x hx => ?_⟩
  · have := sub.length_le
    simp only [List.length_map] at this
    exact this.trans bound
  · obtain ⟨r, hr, same⟩ := List.mem_map.mp (sub.subset (List.mem_map_of_mem hx))
    rw [← (view_record same).1]
    exact inside r hr

/-- Records go only while no jacket serves them, and nothing the law asks of the others or of a jacket changes. -/
theorem PairedBut.of_views (h : PairedBut X Y c) (jackets : ∀ n, (d.jacket n).view = (c.jacket n).view)
    (sub : (d.records.map Record.view).Sublist (c.records.map Record.view))
    (stay : ∀ n r, c.Pairs n r → ∃ x ∈ d.records, x.view = r.view) : PairedBut X Y d where
  sound := registerSound_of_views sub h.sound
  pending x hx pend := by
    obtain ⟨r, hr, same⟩ := List.mem_map.mp (sub.subset (List.mem_map_of_mem hx))
    obtain ⟨-, -, state, -, flag⟩ := view_record same
    rw [← state]
    exact h.pending r hr (flag.trans pend)
  records x hx bound := by
    obtain ⟨r, hr, same⟩ := List.mem_map.mp (sub.subset (List.mem_map_of_mem hx))
    obtain ⟨slot, -, state, -⟩ := view_record same
    rw [← state] at bound
    rw [← slot]
    exact (h.records r hr bound).imp_right fun ⟨n, p⟩ => ⟨n, pairs_of_view (jackets n) hx same.symm p⟩
  jackets n serving := by
    rw [view_serves (jackets n)] at serving
    refine (h.jackets n serving).imp_right fun ⟨r, p⟩ => ?_
    obtain ⟨x, hx, same⟩ := stay n r p
    exact ⟨x, pairs_of_view (jackets n) hx same p⟩
  restarted n e := by
    obtain ⟨-, restart, -, slot⟩ := view_jacket (jackets n)
    rw [slot]
    exact h.restarted n (restart.mp e)

theorem PairedBut.of_same_views (h : PairedBut X Y c) (jackets : ∀ n, (d.jacket n).view = (c.jacket n).view)
    (records : d.records.map Record.view = c.records.map Record.view) : PairedBut X Y d :=
  h.of_views jackets (by rw [records]) fun _ r p =>
    List.mem_map.mp (records ▸ List.mem_map_of_mem (f := Record.view) p.mem : r.view ∈ d.records.map Record.view)

theorem bare_view (h : r.bare = x.bare) : r.view = x.view := by
  have e : r.bare.view = x.bare.view := by rw [h]
  exact e

theorem map_view_bare (l : List Record) : (l.map Record.bare).map Record.view = l.map Record.view := by
  rw [List.map_map]; rfl

/-- Offers, withdrawals and the owed arbitration keep the law: what they remove had its release pending (R59, R83). -/
theorem Serves.pairedBut (k : Serves c d) (h : PairedBut X Y c) : PairedBut X Y d := by
  refine h.of_views (fun n => by rw [k.jackets n]; rfl) ?_ fun n r p => ?_
  · have sub := k.records.map Record.view
    rwa [map_view_bare, map_view_bare] at sub
  · have here : r.bare ∈ (c.records.map Record.bare).filter Record.stays :=
      List.mem_filter.mpr ⟨List.mem_map_of_mem p.mem, by
        have := h.notPending p
        simpa [Record.stays, Record.bare] using this⟩
    rw [← k.standing h.distinct] at here
    obtain ⟨x, hx, same⟩ := List.mem_map.mp (List.mem_filter.mp here).1
    exact ⟨x, hx, bare_view same⟩

/-- An update of a jacket outside what the law asks. -/
theorem PairedBut.updJacket_same {f : Jacket → Jacket} (h : PairedBut X Y c) (same : (f (c.jacket n)).view = (c.jacket n).view) :
    PairedBut X Y (c.updJacket n f) := by
  refine h.of_same_views (fun m => ?_) rfl
  rw [jacket_updJacket]
  split
  · next e => rw [same, e]
  · rfl

/-- An update of a record outside what the law asks. -/
theorem PairedBut.updRecord_same {f : Record → Record} {slot : Nat} (h : PairedBut X Y c) (same : ∀ r, (f r).view = r.view) :
    PairedBut X Y (c.updRecord slot f) :=
  h.of_same_views (fun _ => rfl) (map_updRecord c slot f Record.view same)

/-! ### Updates within the law -/

theorem pairs_updJacket_other {f : Jacket → Jacket} (other : m ≠ n) : (c.updJacket n f).Pairs m r ↔ c.Pairs m r := by
  rw [pairs_iff, pairs_iff, jacket_updJacket, if_neg other]
  rfl

theorem pairs_updJacket_self {f : Jacket → Jacket} :
    (c.updJacket n f).Pairs n r ↔ r ∈ c.records ∧ r.jacket = some n ∧ (f (c.jacket n)).slot = some r.slot ∧
      (f (c.jacket n)).state.stage = some r.state ∧ (f (c.jacket n)).cylinder = some r.serial := by
  rw [pairs_iff, jacket_updJacket, if_pos rfl]
  rfl

/-- A jacket changes its state: the records it named are left out or it names them still, and it names a record if it serves one. -/
theorem PairedBut.updJacket {f : Jacket → Jacket} (h : PairedBut X Y c)
    (named : ∀ r, c.Pairs n r → r.state.bound → Y' r.slot ∨ (c.updJacket n f).Pairs n r)
    (cover : ∀ r ∈ c.records, Y r.slot → Y' r.slot ∨ (c.updJacket n f).Pairs n r)
    (serves : (f (c.jacket n)).state.serves = true → X' n ∨ ∃ r, (c.updJacket n f).Pairs n r)
    (restart : (f (c.jacket n)).state = .recovering .restart → (f (c.jacket n)).slot = none)
    (others : ∀ m, m ≠ n → X m → X' m) : PairedBut X' Y' (c.updJacket n f) where
  sound := registerSound_of_records rfl h.sound
  pending := h.pending
  records r hr bound := by
    rcases h.records r hr bound with out | ⟨m, p⟩
    · exact (cover r hr out).imp_right fun p => ⟨n, p⟩
    · by_cases same : m = n
      · subst same
        exact (named r p bound).imp_right fun p => ⟨m, p⟩
      · exact .inr ⟨m, (pairs_updJacket_other same).mpr p⟩
  jackets m serving := by
    by_cases same : m = n
    · subst same
      rw [jacket_updJacket, if_pos rfl] at serving
      exact serves serving
    · rw [jacket_updJacket, if_neg same] at serving
      exact (h.jackets m serving).imp (others m same) fun ⟨r, p⟩ => ⟨r, (pairs_updJacket_other same).mpr p⟩
  restarted m e := by
    rw [jacket_updJacket] at e ⊢
    split at e
    · next same => rw [if_pos same]; exact restart e
    · next other => rw [if_neg other]; exact h.restarted m e

theorem mem_updRecord {f : Record → Record} {slot : Nat} (hx : x ∈ (c.updRecord slot f).records) :
    (∃ r ∈ c.records, r.slot = slot ∧ x = f r) ∨ (x ∈ c.records ∧ x.slot ≠ slot) := by
  obtain ⟨r, hr, rfl⟩ := List.mem_map.mp hx
  by_cases at_ : r.slot = slot
  · rw [if_pos at_]; exact .inl ⟨r, hr, at_, rfl⟩
  · rw [if_neg at_]; exact .inr ⟨hr, at_⟩

theorem mem_updRecord_self {f : Record → Record} {slot : Nat} (hr : r ∈ c.records) (at_ : r.slot = slot) :
    f r ∈ (c.updRecord slot f).records := List.mem_map.mpr ⟨r, hr, if_pos at_⟩

theorem mem_updRecord_other {f : Record → Record} {slot : Nat} (hr : r ∈ c.records) (other : r.slot ≠ slot) :
    r ∈ (c.updRecord slot f).records := List.mem_map.mpr ⟨r, hr, if_neg other⟩

theorem pairs_updRecord_other {f : Record → Record} {slot : Nat} (other : r.slot ≠ slot) (h : c.Pairs n r) :
    (c.updRecord slot f).Pairs n r := by
  rw [pairs_iff] at h ⊢
  exact ⟨mem_updRecord_other h.1 other, h.2⟩

/-- A record changes its state: the jacket that served it serves it still or is left out, and it is left out if its new state names a jacket. -/
theorem PairedBut.updRecord {f : Record → Record} {slot : Nat} (h : PairedBut X Y c)
    (same : ∀ r, (f r).slot = r.slot ∧ (f r).serial = r.serial)
    (pend : ∀ r ∈ c.records, r.slot = slot → (f r).releasePending = true → (f r).state.leavable)
    (served : ∀ m r, c.Pairs m r → r.slot = slot → X' m)
    (claimed : ∀ r ∈ c.records, r.slot = slot → (f r).state.bound → Y' slot)
    (jackets : ∀ m, X m → X' m) (slots : ∀ s, Y s → s = slot ∨ Y' s) : PairedBut X' Y' (c.updRecord slot f) where
  sound := by
    obtain ⟨bound, serials, slots_, inside⟩ := h.sound
    refine ⟨by simpa [Controller.updRecord] using bound, ?_, ?_, fun x hx => ?_⟩
    · rwa [map_updRecord c slot f Record.serial fun r => (same r).2]
    · rwa [map_updRecord c slot f Record.slot fun r => (same r).1]
    · rcases mem_updRecord hx with ⟨r, hr, -, rfl⟩ | ⟨hx, -⟩
      · rw [(same r).1]; exact inside r hr
      · exact inside x hx
  pending x hx flag := by
    rcases mem_updRecord hx with ⟨r, hr, at_, rfl⟩ | ⟨hx, -⟩
    · exact pend r hr at_ flag
    · exact h.pending x hx flag
  records x hx bound := by
    rcases mem_updRecord hx with ⟨r, hr, at_, rfl⟩ | ⟨hx, other⟩
    · rw [(same r).1, at_]
      exact .inl (claimed r hr at_ bound)
    · refine (h.records x hx bound).imp (fun out => (slots _ out).resolve_left other) fun ⟨m, p⟩ => ?_
      exact ⟨m, pairs_updRecord_other other p⟩
  jackets m serving := by
    rcases h.jackets m serving with out | ⟨r, p⟩
    · exact .inl (jackets m out)
    · by_cases at_ : r.slot = slot
      · exact .inl (served m r p at_)
      · exact .inr ⟨r, pairs_updRecord_other at_ p⟩
  restarted := h.restarted

/-- No jacket serves the record in a slot. -/
def Unserved (slot : Nat) (c : Controller) : Prop := ∀ m r, c.Pairs m r → r.slot ≠ slot

/-- A record that no jacket serves goes to a state that names none. -/
theorem PairedBut.updRecord_unserved {f : Record → Record} {slot : Nat} (h : PairedBut X Y c)
    (same : ∀ r, (f r).slot = r.slot ∧ (f r).serial = r.serial)
    (pend : ∀ r ∈ c.records, r.slot = slot → (f r).releasePending = true → (f r).state.leavable)
    (unserved : Unserved slot c) (unbound : ∀ r, ¬ (f r).state.bound) : PairedBut X Y (c.updRecord slot f) :=
  h.updRecord same pend (fun m r p at_ => (unserved m r p at_).elim) (fun r _ _ b => (unbound r b).elim) (fun _ => id)
    fun _ => .inr

/-- A record in a state that no jacket serves. -/
theorem unserved_of_state {slot : Nat} (h : ∀ r ∈ c.records, r.slot = slot → ¬ r.state.bound ∧ r.state ≠ .unloading) :
    Unserved slot c := fun m r p at_ => by
  obtain ⟨hr, -, -, stage, -⟩ := pairs_iff.mp p
  obtain ⟨unbound, loaded⟩ := h r hr at_
  rcases stage_cases stage with e | e | e
  · exact unbound (.inl e)
  · exact unbound (.inr e)
  · exact loaded e

/-- The removal of a record that no jacket serves. -/
theorem PairedBut.drop {slot : Nat} (h : PairedBut X Y c) (unserved : Unserved slot c) :
    PairedBut X Y { c with records := c.records.filter fun r => r.slot != slot } := by
  refine h.of_views (fun _ => rfl) (List.filter_sublist.map _) fun n r p => ?_
  exact ⟨r, List.mem_filter.mpr ⟨p.mem, by simpa using unserved n r p⟩, rfl⟩

/-- Records left out that name no jacket need not be left out. -/
theorem PairedBut.settle (h : PairedBut X Y c) (unbound : ∀ r ∈ c.records, Y r.slot → ¬ r.state.bound) : PairedBut X noSlot c :=
  ⟨h.sound, h.pending, fun r hr b => .inr ((h.records r hr b).resolve_left fun out => unbound r hr out b), h.jackets, h.restarted⟩

end Sys2Proof.Machine
end

section
/-! SUPPORT. Every operation of the register, the assigner, the jackets and Line Control keeps the law of R83. -/
namespace Sys2Proof.Machine

variable {X X' : JacketNo → Prop} {Y Y' : Nat → Prop} {c d : Controller} {n m : JacketNo} {r x : Record}

theorem not_bound {s : RecordState} (h : s ≠ .routed) (k : s ≠ .testing) : ¬ s.bound := fun b => b.elim h k

theorem waiting_unbound : ¬ RecordState.waiting.bound := not_bound (by decide) (by decide)
theorem unloading_unbound : ¬ RecordState.unloading.bound := not_bound (by decide) (by decide)
theorem stamping_unbound : ¬ RecordState.stamping.bound := not_bound (by decide) (by decide)
theorem scrapping_unbound : ¬ RecordState.scrapping.bound := not_bound (by decide) (by decide)
theorem leaving_unbound : ¬ RecordState.leaving.bound := not_bound (by decide) (by decide)
theorem manualHeld_unbound : ¬ RecordState.manualHeld.bound := not_bound (by decide) (by decide)

/-- The record in a slot, by its own place in the list. -/
theorem recordAt_only (distinct : c.SlotsDistinct) (found : c.recordAt r.slot = some r) (hx : x ∈ c.records)
    (at_ : x.slot = r.slot) : x = r := eq_of_recordAt distinct found hx at_

theorem find_mem {serial : Serial} (h : c.recordOf serial = some r) : r ∈ c.records := List.mem_of_find?_eq_some h

/-! ### The register's operations (R43, R58, R66) -/

/-- Entry to MANUAL_HELD: the jacket that served the record is left out, and the record no longer is (R43). -/
theorem holdRecord_pairedBut {slot : Nat} {cause : HeldCause} (h : PairedBut X Y c)
    (served : ∀ m r, c.Pairs m r → r.slot = slot → X' m) (jackets : ∀ m, X m → X' m) (slots : ∀ s, Y s → s = slot ∨ Y' s) :
    PairedBut X' Y' (c.holdRecord slot cause) := by
  have untouched (free : ∀ r ∈ c.records, r.slot = slot → ¬ r.state.bound) : PairedBut X' Y' c :=
    ⟨h.sound, h.pending, fun r hr b => (h.records r hr b).imp_left fun out => (slots _ out).resolve_left fun at_ => free r hr at_ b,
      fun n s => (h.jackets n s).imp_left (jackets n), h.restarted⟩
  unfold Controller.holdRecord
  split
  · next none_ =>
    refine untouched fun r hr at_ => ?_
    have := List.find?_eq_none.mp none_ r hr
    simp [at_] at this
  · next r found =>
    split
    · next still =>
      refine untouched fun x hx at_ => ?_
      obtain rfl := eq_of_recordAt h.distinct found hx at_
      rcases still with pending | held
      · rcases h.pending x hx pending with e | e | e <;> simp [e, RecordState.bound]
      · simp [held, RecordState.bound]
    · refine (cancelOrders_serves _ _).pairedBut (h.updRecord (fun _ => ⟨rfl, rfl⟩) ?_ served ?_ jackets slots)
      · exact fun _ _ _ _ => .inr (.inr rfl)
      · exact fun _ _ _ b => (manualHeld_unbound b).elim

theorem holdRecord_unserved {slot : Nat} {cause : HeldCause} (h : PairedBut X Y c) (unserved : Unserved slot c) :
    PairedBut X Y (c.holdRecord slot cause) :=
  holdRecord_pairedBut h (fun m r p at_ => (unserved m r p at_).elim) (fun _ => id) fun _ => .inr

/-- A release asked of a record that may leave (R58, R59). -/
theorem askRelease_pairedBut {slot : Nat} (h : PairedBut X Y c) (leaves : ∀ r ∈ c.records, r.slot = slot → r.state.leavable) :
    PairedBut X Y (c.askRelease slot) := by
  have unserved : Unserved slot c := unserved_of_state fun r hr at_ => by
    rcases leaves r hr at_ with e | e | e <;> simp [e, RecordState.bound]
  unfold Controller.askRelease
  split
  · exact h
  · split
    · refine h.updRecord (fun _ => ⟨rfl, rfl⟩) (fun r hr at_ _ => leaves r hr at_) (fun m r p at_ => (unserved m r p at_).elim)
        (fun r hr at_ b => ?_) (fun _ => id) fun _ => .inr
      rcases leaves r hr at_ with e | e | e <;> simp [e, RecordState.bound] at b
    · unfold Controller.remove Controller.removeWith
      dsimp only
      refine (finishDrain_serves _).pairedBut ?_
      refine (judge_serves _ _).pairedBut ?_
      refine (withdrawLoop_serves arbitrate_serves _ _ _).pairedBut ?_
      refine (setOutstanding_serves _ _).pairedBut ?_
      exact (setQueue_serves _ _).pairedBut (h.drop unserved)

/-- A record that no jacket serves, and whose release is not pending, takes a state that names no jacket, and makes its orders. -/
theorem routeTo_pairedBut {slot : Nat} {s : RecordState} {l : List Order} (h : PairedBut X Y c) (unserved : Unserved slot c)
    (free : ∀ r ∈ c.records, r.slot = slot → r.releasePending = false) (unbound : ¬ s.bound) :
    PairedBut X Y (c.routeTo slot s l) := by
  refine (makeOrders_serves _ _ _).pairedBut (h.updRecord_unserved (fun _ => ⟨rfl, rfl⟩) (fun r hr at_ flag => ?_) unserved
    fun _ => unbound)
  have flag : r.releasePending = true := flag
  rw [free r hr at_] at flag
  cases flag

theorem divert_pairedBut {slot : Nat} {v : Verdict} {lane : GateDest} (h : PairedBut X Y c) (unserved : Unserved slot c) :
    PairedBut X Y (c.divert slot v lane) := by
  refine (makeOrders_serves _ _ _).pairedBut (h.updRecord_unserved (fun _ => ⟨rfl, rfl⟩) (fun _ _ _ _ => .inl rfl) unserved
    fun _ => leaving_unbound)

theorem route_pairedBut {slot : Nat} (h : PairedBut X Y c) (unserved : Unserved slot c)
    (free : ∀ r ∈ c.records, r.slot = slot → r.releasePending = false) : PairedBut X Y (c.route slot) := by
  have lane (s : RecordState) (l : List Order) (u : ¬ s.bound) := routeTo_pairedBut (l := l) h unserved free u
  unfold Controller.route
  split
  · exact h
  · dsimp only
    split
    · exact lane _ _ stamping_unbound
    · split
      · exact lane _ _ stamping_unbound
      · exact lane _ _ scrapping_unbound
    · exact lane _ _ leaving_unbound
    · exact lane _ _ leaving_unbound
    · exact h

/-! ### The assigner (R79 to R83) -/

/-- A waiting record of the list is one that no jacket serves. -/
theorem unserved_of_waiting (distinct : c.SlotsDistinct) (hr : r ∈ c.records) (waiting : r.isWaiting = true) :
    Unserved r.slot c ∧ ∀ x ∈ c.records, x.slot = r.slot → x.releasePending = false := by
  simp only [Record.isWaiting, Bool.and_eq_true, beq_iff_eq, Bool.not_eq_true'] at waiting
  refine ⟨unserved_of_state fun x hx at_ => ?_, fun x hx at_ => ?_⟩
  · obtain rfl := eq_of_slot distinct hx hr at_
    simp [waiting.1, RecordState.bound]
  · obtain rfl := eq_of_slot distinct hx hr at_
    exact waiting.2

theorem programFault_pairedBut (h : PairedBut X Y c) (hr : r ∈ c.records) (waiting : r.isWaiting = true) :
    PairedBut X Y (c.programFault r) := by
  exact (raise_serves _ _ _ _).pairedBut (divert_pairedBut h (unserved_of_waiting h.distinct hr waiting).1)

/-- The assignment of a waiting record to an IDLE jacket makes a pair (R83). -/
theorem assign_pairedBut (h : PairedBut X Y c) (hr : r ∈ c.records) (waiting : r.isWaiting = true)
    (idle : (c.jacket n).state = .idle) : PairedBut X Y (c.assign r n) := by
  obtain ⟨unserved, free⟩ := unserved_of_waiting h.distinct hr waiting
  let routed : Record → Record := fun r => { r with state := .routed, jacket := some n }
  have first : PairedBut X (fun s => s = r.slot ∨ Y s) (c.updRecord r.slot routed) :=
    h.updRecord (fun _ => ⟨rfl, rfl⟩) (fun x hx at_ flag => by
        have flag : x.releasePending = true := flag
        rw [free x hx at_] at flag; cases flag)
      (fun m x p at_ => (unserved m x p at_).elim) (fun _ _ _ _ => .inl rfl) (fun _ => id) fun _ out => .inr (.inr out)
  have distinct : (c.updRecord r.slot routed).SlotsDistinct := first.distinct
  have here : routed r ∈ (c.updRecord r.slot routed).records := mem_updRecord_self hr rfl
  let awaits : Jacket → Jacket := fun j =>
    { j with state := .awaiting, awaited := some r.serial, slot := some r.slot, programStart := r.spec.programStart }
  have pair : ((c.updRecord r.slot routed).updJacket n awaits).Pairs n (routed r) :=
    pairs_updJacket_self.mpr ⟨here, rfl, rfl, rfl, rfl⟩
  refine (makeOrders_serves _ _ _).pairedBut (first.updJacket (fun x p => ?_) (fun x hx out => ?_) (fun _ => .inr ⟨_, pair⟩)
    (fun e => nomatch e) fun _ _ => id)
  · have stage := (pairs_iff.mp p).2.2.2.1
    rw [jacket_updRecord, idle] at stage
    cases stage
  · rcases out with at_ | out
    · obtain rfl := eq_of_slot distinct hx here at_
      exact .inr pair
    · exact .inl out

theorem eligible_idle (h : c.eligible n r = true) : (c.jacket n).state = .idle := by
  simp only [Controller.eligible, Bool.and_eq_true, beq_iff_eq] at h
  exact h.1.1.1.1

theorem recordFor_some (h : c.recordFor n = some r) :
    r ∈ c.records ∧ r.isWaiting = true ∧ c.eligible n r = true := by
  obtain ⟨hr, waiting⟩ := List.mem_filter.mp (List.mem_of_find?_eq_some h)
  exact ⟨hr, waiting, by simpa using List.find?_some h⟩

theorem jacketFor_some (h : c.jacketFor r = some n) : c.eligible n r = true := by
  have lowest (g : (jacketNumbers.find? fun n => c.eligible n r) = some n) : c.eligible n r = true := by
    simpa using List.find?_some g
  unfold Controller.jacketFor at h
  dsimp only at h
  split at h
  · rcases Option.or_eq_some_iff.mp h with first | ⟨-, second⟩
    · have := List.find?_some first
      simp only [Bool.and_eq_true] at this
      exact this.1
    · exact lowest second
  · exact lowest h

theorem jacketPass_pairedBut (h : PairedBut X Y c) (n : JacketNo) : PairedBut X Y (c.jacketPass n) := by
  have depth (k : Nat) (c : Controller) (h : PairedBut X Y c) : PairedBut X Y (Controller.jacketPassDepth k c n) := by
    induction k generalizing c with
    | zero => exact h
    | succ k ih =>
      unfold Controller.jacketPassDepth
      split
      · exact h
      · next r found =>
        obtain ⟨hr, waiting, eligible⟩ := recordFor_some found
        split
        · exact assign_pairedBut h hr waiting (eligible_idle eligible)
        · exact ih _ (programFault_pairedBut h hr waiting)
  unfold Controller.jacketPass
  split
  · exact depth _ c h
  · exact h

theorem foldl_pairedBut {f : Controller → JacketNo → Controller} (hf : ∀ c n, PairedBut X Y c → PairedBut X Y (f c n))
    (l : List JacketNo) (h : PairedBut X Y c) : PairedBut X Y (l.foldl f c) := by
  induction l generalizing c with
  | nil => exact h
  | cons n l ih => exact ih (hf c n h)

theorem jacketPasses_pairedBut (h : PairedBut X Y c) : PairedBut X Y c.jacketPasses :=
  foldl_pairedBut (fun _ n h => jacketPass_pairedBut h n) _ h

theorem recordPass_pairedBut (h : PairedBut X Y c) (slot : Nat) : PairedBut X Y (c.recordPass slot) := by
  unfold Controller.recordPass
  split
  · split
    · exact h
    · next r found =>
      have hr := recordAt_mem found
      split
      · next waiting =>
        split
        · exact h
        · next n chosen =>
          split
          · exact assign_pairedBut h hr waiting (eligible_idle (jacketFor_some chosen))
          · exact jacketPass_pairedBut (programFault_pairedBut h hr waiting) n
      · exact h
  · exact h

theorem enterWaiting_pairedBut {slot : Nat} (h : PairedBut X Y c) (unserved : Unserved slot c)
    (free : ∀ r ∈ c.records, r.slot = slot → r.releasePending = false) : PairedBut X Y (c.enterWaiting slot) := by
  refine recordPass_pairedBut (h.updRecord_unserved (f := fun r => { r with state := .waiting, jacket := none }) (fun _ => ⟨rfl, rfl⟩) (fun r hr at_ flag => ?_) unserved
    fun _ => waiting_unbound) slot
  have flag : r.releasePending = true := flag
  rw [free r hr at_] at flag
  cases flag

/-! ### The jackets at work (R97 to R113) -/

/-- Jacket n serves a TESTING record, and the law holds. -/
structure AtWork (n : JacketNo) (c : Controller) : Prop where
  law : PairedBut noJacket noSlot c
  testing : ∃ r, c.Pairs n r ∧ r.state = .testing

theorem atWork_of_stage (law : PairedBut noJacket noSlot c) (serves : (c.jacket n).state.serves = true)
    (stage : (c.jacket n).state.stage = some .testing) : AtWork n c := by
  obtain ⟨r, p⟩ := (law.jackets n serves).resolve_left id
  refine ⟨law, r, p, ?_⟩
  have := (pairs_iff.mp p).2.2.2.1
  rw [stage] at this
  exact (Option.some.inj this).symm

theorem atWork_of_running {b : BlockKind} (law : PairedBut noJacket noSlot c) (running : (c.jacket n).state = .running b) :
    AtWork n c := atWork_of_stage law (by rw [running]; rfl) (by rw [running]; rfl)

theorem AtWork.of_pairs (h : AtWork n c) (law : PairedBut noJacket noSlot d)
    (keeps : ∀ r, c.Pairs n r → ∃ x, d.Pairs n x ∧ x.state = r.state) : AtWork n d := by
  obtain ⟨-, r, p, testing⟩ := h
  obtain ⟨x, q, same⟩ := keeps r p
  exact ⟨law, x, q, same.trans testing⟩

theorem AtWork.updJacket {f : Jacket → Jacket} (h : AtWork n c) (same : (f (c.jacket n)).view = (c.jacket n).view) :
    AtWork n (c.updJacket n f) := by
  refine h.of_pairs (h.law.updJacket_same same) fun r p => ⟨r, ?_, rfl⟩
  exact pairs_of_view (by rw [jacket_updJacket, if_pos rfl, same]) p.mem rfl p

theorem AtWork.updRecord {f : Record → Record} {slot : Nat} (h : AtWork n c) (same : ∀ r, (f r).view = r.view) :
    AtWork n (c.updRecord slot f) := by
  refine h.of_pairs (h.law.updRecord_same same) fun r p => ?_
  by_cases at_ : r.slot = slot
  · exact ⟨f r, pairs_of_view (c := c) rfl (mem_updRecord_self p.mem at_) (same r) p, (view_record (same r)).2.2.1⟩
  · exact ⟨r, pairs_updRecord_other at_ p, rfl⟩

theorem Serves.atWork (k : Serves c d) (h : AtWork n c) : AtWork n d := by
  refine h.of_pairs (k.pairedBut h.law) fun r p => ?_
  have serving : (d.jacket n).state.stage = some r.state := by
    rw [k.jackets n]
    exact (pairs_iff.mp p).2.2.2.1
  have here : r.bare ∈ (c.records.map Record.bare).filter Record.stays :=
    List.mem_filter.mpr ⟨List.mem_map_of_mem p.mem, by
      have := h.law.notPending p
      simpa [Record.stays, Record.bare] using this⟩
  rw [← k.standing h.law.distinct] at here
  obtain ⟨x, hx, same⟩ := List.mem_map.mp (List.mem_filter.mp here).1
  exact ⟨x, pairs_of_view (by rw [k.jackets n]; rfl) hx (bare_view same) p, (view_record (bare_view same)).2.2.1⟩

theorem updVerif_serves_law (f : Verification → Verification) (h : AtWork n c) : AtWork n (c.updVerif m f) := by
  refine h.of_pairs (h.law.of_same_views (fun _ => rfl) rfl) fun r p => ⟨r, ?_, rfl⟩
  exact pairs_of_view (c := c) rfl p.mem rfl p

/-- A jacket at work changes its state to another at work. -/
theorem AtWork.toStage {f : Jacket → Jacket} (h : AtWork n c) (stage : (f (c.jacket n)).state.stage = some .testing)
    (notAwaiting : (f (c.jacket n)).state ≠ .awaiting) (notRestart : (f (c.jacket n)).state ≠ .recovering .restart)
    (loaded : (f (c.jacket n)).loaded = (c.jacket n).loaded) (slot : (f (c.jacket n)).slot = (c.jacket n).slot) :
    AtWork n (c.updJacket n f) := by
  obtain ⟨law, r, p, testing⟩ := id h
  obtain ⟨hr, names, slot', stage', cylinder⟩ := pairs_iff.mp p
  have working : (c.jacket n).state ≠ .awaiting := fun e => by
    rw [e, testing] at stage'; cases stage'
  have pair : (c.updJacket n f).Pairs n r := by
    refine pairs_updJacket_self.mpr ⟨hr, names, slot.trans slot', by rw [stage, testing], ?_⟩
    unfold Jacket.cylinder at cylinder ⊢
    rw [if_neg working] at cylinder
    rw [if_neg notAwaiting, loaded, cylinder]
  refine ⟨law.updJacket (fun x q _ => .inr ?_) (fun _ _ out => out.elim) (fun _ => .inr ⟨r, pair⟩) (fun e => (notRestart e).elim)
    fun _ _ => id, r, pair, testing⟩
  obtain rfl := pairs_unique law.distinct q p
  exact pair

theorem makeVent_atWork (h : AtWork n c) (m : JacketNo) : AtWork n (c.makeVent m) := (makeVent_serves c m).atWork h

theorem ventInto_atWork {reason : RecoverReason} (h : AtWork n c) (notRestart : reason ≠ .restart) : AtWork n (c.ventInto n reason) :=
  (makeVent_atWork h n).toStage rfl (fun e => nomatch e) (fun e => notRestart (JacketState.recovering.inj e)) rfl rfl

theorem earlyEnd_atWork {cause : EarlyCause} (h : AtWork n c) : AtWork n (c.earlyEnd n cause) :=
  ventInto_atWork (h.updJacket rfl) (by decide)

/-- Jacket n holds the cylinder of a TESTING record; the two need not pair yet. -/
def Ready (n : JacketNo) (slot : Nat) (c : Controller) : Prop :=
  ∃ r ∈ c.records, r.slot = slot ∧ r.state = .testing ∧ r.jacket = some n ∧ (c.jacket n).slot = some slot ∧
    (c.jacket n).loaded = some r.serial

theorem AtWork.ready (h : AtWork n c) : ∃ slot, Ready n slot c := by
  obtain ⟨-, r, p, testing⟩ := h
  obtain ⟨hr, names, slot, stage, cylinder⟩ := pairs_iff.mp p
  have working : (c.jacket n).state ≠ .awaiting := fun e => by rw [e, testing] at stage; cases stage
  unfold Jacket.cylinder at cylinder
  rw [if_neg working] at cylinder
  exact ⟨r.slot, r, hr, rfl, testing, names, slot, cylinder⟩

/-- A jacket that is ready and goes to a state at work serves its record. -/
theorem Ready.toStage {f : Jacket → Jacket} {slot : Nat} (ready : Ready n slot c)
    (law : PairedBut (fun m => m = n) (fun s => s = slot) c) (stage : (f (c.jacket n)).state.stage = some .testing)
    (notRestart : (f (c.jacket n)).state ≠ .recovering .restart) (loaded : (f (c.jacket n)).loaded = (c.jacket n).loaded)
    (slot_ : (f (c.jacket n)).slot = (c.jacket n).slot) : AtWork n (c.updJacket n f) := by
  obtain ⟨r, hr, at_, testing, names, place, cylinder⟩ := ready
  have notAwaiting : (f (c.jacket n)).state ≠ .awaiting := fun e => by rw [e] at stage; cases stage
  have pair : (c.updJacket n f).Pairs n r := by
    refine pairs_updJacket_self.mpr ⟨hr, names, by rw [slot_, place, at_], by rw [stage, testing], ?_⟩
    unfold Jacket.cylinder
    rw [if_neg notAwaiting, loaded, cylinder]
  refine ⟨law.updJacket (fun x q _ => .inr ?_) (fun x hx out => .inr ?_) (fun _ => .inr ⟨r, pair⟩)
    (fun e => (notRestart e).elim) fun m other same => (other same).elim, r, pair, testing⟩
  · have same : x.slot = r.slot := by
      have := q.slot
      rw [place] at this
      rw [at_]
      exact (Option.some.inj this).symm
    obtain rfl := eq_of_slot law.distinct q.mem hr same
    exact pair
  · obtain rfl := eq_of_slot law.distinct hx hr (out.trans at_.symm)
    exact pair

theorem blockCommand_serves (c : Controller) (n : JacketNo) (b : Block) : Serves c (c.blockCommand n b) := by
  unfold Controller.blockCommand
  split
  · exact offerCommand_serves _ _ _
  · exact makeVent_serves _ _
  all_goals exact .refl

/-- Entry to a block leaves the jacket at work (R98). -/
theorem enterBlock_atWork {slot : Nat} (ready : Ready n slot c) (law : PairedBut (fun m => m = n) (fun s => s = slot) c) :
    AtWork n (c.enterBlock n) := by
  have working (k : Nat) (c : Controller) (h : AtWork n c) : AtWork n (Controller.enterBlockDepth k c n) := by
    induction k generalizing c with
    | zero => exact h
    | succ k ih =>
      have entered := (blockCommand_serves _ n (c.currentBlock n)).atWork (h.toStage (f := Jacket.beginBlock (c.currentBlock n)) rfl
        (fun e => nomatch e) (fun e => nomatch e) rfl rfl)
      unfold Controller.enterBlockDepth
      dsimp only
      split
      · exact ih _ (entered.updJacket rfl)
      · exact entered
  unfold Controller.enterBlock Controller.enterBlockDepth
  dsimp only
  have entered := (blockCommand_serves _ n (c.currentBlock n)).atWork (ready.toStage (f := Jacket.beginBlock (c.currentBlock n)) law
    rfl (fun e => nomatch e) rfl rfl)
  split
  · exact working _ _ (entered.updJacket rfl)
  · exact entered

theorem AtWork.enterBlock (h : AtWork n c) : AtWork n (c.enterBlock n) := by
  obtain ⟨slot, ready⟩ := h.ready
  exact enterBlock_atWork ready (h.law.weaken (fun _ => False.elim) fun _ => False.elim)

/-- A program start leaves the jacket at work (R97). -/
theorem startProgram_atWork {slot : Nat} (ready : Ready n slot c) (law : PairedBut (fun m => m = n) (fun s => s = slot) c) :
    AtWork n (c.startProgram n) := by
  unfold Controller.startProgram Controller.countAttempt
  refine enterBlock_atWork (slot := slot) ?_ ((law.updRecord_same (f := fun r => { r with attempts := min 255 (r.attempts + 1) }) fun _ => rfl).updJacket_same rfl)
  obtain ⟨r, hr, at_, testing, names, place, loaded⟩ := ready
  have self : ((c.updRecord (c.servedSlot n) fun r => { r with attempts := min 255 (r.attempts + 1) }).updJacket n
      Jacket.beginProgram).jacket n = (c.jacket n).beginProgram := by
    rw [jacket_updJacket, if_pos rfl]; rfl
  unfold Ready
  rw [self]
  by_cases served : r.slot = c.servedSlot n
  · exact ⟨_, mem_updRecord_self hr served, at_, testing, names, place, loaded⟩
  · exact ⟨r, mem_updRecord_other hr served, at_, testing, names, place, loaded⟩

theorem AtWork.startProgram (h : AtWork n c) : AtWork n (c.startProgram n) := by
  obtain ⟨slot, ready⟩ := h.ready
  exact startProgram_atWork ready (h.law.weaken (fun _ => False.elim) fun _ => False.elim)

/-- A jacket that serves a record to its end and the record go to UNLOADING together (R112, R113). -/
theorem unload_pairedBut {onClear : OnClear} (h : AtWork n c) : PairedBut noJacket noSlot (c.unload n onClear) := by
  obtain ⟨law, r, p, testing⟩ := h
  obtain ⟨hr, names, place, stage, cylinder⟩ := pairs_iff.mp p
  have working : (c.jacket n).state ≠ .awaiting := fun e => by rw [e, testing] at stage; cases stage
  unfold Jacket.cylinder at cylinder
  rw [if_neg working] at cylinder
  have slot := PairedBut.servedSlot p
  unfold Controller.unload
  dsimp only
  refine (offerCommand_serves _ _ _).pairedBut ?_
  have first : PairedBut (fun m => m = n) noSlot (c.updRecord (c.servedSlot n) fun r => { r with state := .unloading }) := by
    refine law.updRecord (fun _ => ⟨rfl, rfl⟩) (fun x hx at_ flag => ?_) (fun m x q at_ => ?_)
      (fun _ _ _ b => (unloading_unbound b).elim) (fun _ => False.elim) fun _ => False.elim
    · obtain rfl := eq_of_slot law.distinct hx hr (at_.trans slot)
      have flag : x.releasePending = true := flag
      rw [law.notPending p] at flag
      cases flag
    · obtain rfl := eq_of_slot law.distinct q.mem hr (at_.trans slot)
      exact pairs_jacket q p
  refine first.updJacket (fun x q b => ?_) (fun _ _ out => out.elim) (fun _ => .inr ⟨{ r with state := .unloading }, ?_⟩)
    (fun e => nomatch e) fun m other same => (other same).elim
  · have at_ : x.slot = r.slot := by
      have := q.slot
      rw [jacket_updRecord, place] at this
      exact (Option.some.inj this).symm
    rcases mem_updRecord q.mem with ⟨y, -, -, rfl⟩ | ⟨-, other⟩
    · exact (unloading_unbound b).elim
    · exact (other (at_.trans slot.symm)).elim
  · refine pairs_updJacket_self.mpr ⟨mem_updRecord_self hr slot.symm, names, place, rfl, ?_⟩
    exact cylinder

theorem carryOut_pairedBut (h : AtWork n c) (i : Instruction) : PairedBut noJacket noSlot (c.carryOut n i) := by
  unfold Controller.carryOut
  split
  · exact unload_pairedBut h
  · split
    · exact h.startProgram.law
    · exact (h.toStage (f := fun j => { j with state := .heldVented }) rfl (fun e => nomatch e) (fun e => nomatch e) rfl rfl).law

theorem takeResult_view (r : Record) (result : LastResult) (date : Option Date) : (r.takeResult result date).view = r.view := by
  unfold Record.takeResult Record.takeOutcome
  split <;> (try split) <;> (try split) <;> rfl

theorem verify_atWork {o : EvalOutcome} (h : AtWork n c) : AtWork n (c.verify m o) := by
  unfold Controller.verify
  dsimp only
  split
  · exact (raise_serves _ _ _ _).atWork (updVerif_serves_law _ h)
  · exact updVerif_serves_law _ h

/-- An evaluation keeps the law (R121). -/
theorem evaluate_pairedBut (h : AtWork n c) : PairedBut noJacket noSlot (c.evaluate n) := by
  unfold Controller.evaluate
  split
  · exact h.law
  · dsimp only
    refine carryOut_pairedBut ((makeResult_serves _ _ _ _).atWork (verify_atWork (h.updRecord fun r => ?_))) _
    exact takeResult_view _ _ _

theorem completeBlock_pairedBut (h : AtWork n c) : PairedBut noJacket noSlot (c.completeBlock n) := by
  unfold Controller.completeBlock
  split
  · exact (h.updJacket (f := fun j => { j with currentBlock := j.currentBlock + 1 }) rfl).enterBlock.law
  · exact evaluate_pairedBut h

theorem settle_pairedBut (h : AtWork n c) (b : Block) (m : Means) : PairedBut noJacket noSlot (c.settle n b m) := by
  unfold Controller.settle
  split
  · exact completeBlock_pairedBut (h.updJacket rfl)
  · split
    · dsimp only
      split
      · split
        · exact (earlyEnd_atWork (h.updJacket rfl)).law
        · exact completeBlock_pairedBut (h.updJacket rfl)
      · exact completeBlock_pairedBut (h.updJacket rfl)
    · exact completeBlock_pairedBut h
  · split
    · exact completeBlock_pairedBut h
    · exact completeBlock_pairedBut (h.updJacket rfl)
  all_goals exact h.law

theorem completeRecord_pairedBut (h : AtWork n c) (b : Block) : PairedBut noJacket noSlot (c.completeRecord n b) := by
  unfold Controller.completeRecord
  dsimp only
  have counted := h.updJacket (f := Jacket.countRecord b (recordMeans (c.jacket n).acc b.samples)) rfl
  split
  · exact settle_pairedBut counted _ _
  · split
    · exact (earlyEnd_atWork counted).law
    · exact (counted.updJacket rfl).law

theorem accumulate_pairedBut (h : AtWork n c) (b : Block) (s : Sample) : PairedBut noJacket noSlot (c.accumulate n b s) := by
  unfold Controller.accumulate
  dsimp only
  split
  · exact completeRecord_pairedBut (h.updJacket rfl) b
  · exact (h.updJacket rfl).law

theorem blockSample_pairedBut (h : AtWork n c) (s : Sample) : PairedBut noJacket noSlot (c.blockSample n s) := by
  unfold Controller.blockSample
  dsimp only
  split
  · split
    · exact accumulate_pairedBut h _ _
    · exact (h.updJacket rfl).law
  · split
    · exact completeBlock_pairedBut h
    · exact h.law
  · exact accumulate_pairedBut h _ _
  · split
    · exact accumulate_pairedBut h _ _
    · split
      · exact accumulate_pairedBut (h.updJacket rfl) _ _
      · exact h.law
  · exact h.law

/-- A jacket that serves no record goes to a state that serves none. -/
theorem PairedBut.emptied {s : JacketState} (h : PairedBut X Y c) (rest : s.stage = none) (notRestart : s ≠ .recovering .restart)
    (unnamed : ∀ r, c.Pairs n r → r.state.bound → Y r.slot) (others : ∀ m, m ≠ n → X m → X' m) :
    PairedBut X' Y (c.updJacket n (Jacket.emptied s)) :=
  h.updJacket (fun r p b => .inl (unnamed r p b)) (fun _ _ out => .inl out)
    (fun serves => by
      have serves := (serves_iff_stage _).mp serves
      have none_ : ((Jacket.emptied s (c.jacket n)).state.stage).isSome = false := by
        show s.stage.isSome = false
        rw [rest]; rfl
      rw [none_] at serves
      cases serves.1)
    (fun e => (notRestart e).elim) others

theorem endRecovery_pairedBut {reason : RecoverReason} (h : PairedBut noJacket noSlot c)
    (recovering : (c.jacket n).state = .recovering reason) : PairedBut noJacket noSlot (c.endRecovery n reason) := by
  have work (notRestart : reason ≠ .restart) : AtWork n c :=
    atWork_of_stage h (by rw [recovering]; cases reason <;> first | rfl | contradiction) (by rw [recovering]; rfl)
  cases reason with
  | early => exact evaluate_pairedBut (work (by decide))
  | hold =>
    unfold Controller.endRecovery
    dsimp only
    split
    · exact (work (by decide)).startProgram.law
    · exact ((work (by decide)).toStage (f := fun j => { j with state := .heldVented }) rfl (fun e => nomatch e) (fun e => nomatch e)
        rfl rfl).law
  | abort => exact unload_pairedBut (work (by decide))
  | restart =>
    refine h.emptied rfl (by decide) (fun r p _ => ?_) fun _ _ => id
    have := p.slot
    rw [h.restarted n recovering] at this
    cases this

theorem takeSample_pairedBut (h : PairedBut noJacket noSlot c) (s : Sample) : PairedBut noJacket noSlot (c.takeSample n s) := by
  unfold Controller.takeSample
  split
  · next b running =>
    have work := (atWork_of_running h running).updJacket (f := fun j => { j with sampleAge := 0 }) rfl
    dsimp only
    split
    · exact (raise_serves _ _ _ _).pairedBut (earlyEnd_atWork work).law
    · exact blockSample_pairedBut work s
  · next reason recovering =>
    have sampled := h.updJacket_same (n := n) (f := fun j => { j with sampleAge := 0 }) rfl
    dsimp only
    split
    · exact endRecovery_pairedBut sampled (by rw [jacket_updJacket, if_pos rfl]; exact recovering)
    · exact sampled
  · exact h

theorem jacketHold_pairedBut (h : PairedBut noJacket noSlot c) (n : JacketNo) : PairedBut noJacket noSlot (c.jacketHold n) := by
  unfold Controller.jacketHold
  split
  · next b running => exact (ventInto_atWork (atWork_of_running h running) (by decide)).law
  · exact h.updJacket_same rfl
  · exact h

theorem jacketResume_pairedBut (h : PairedBut noJacket noSlot c) (n : JacketNo) : PairedBut noJacket noSlot (c.jacketResume n) := by
  unfold Controller.jacketResume
  split
  · next vented => exact (atWork_of_stage h (by rw [vented]; rfl) (by rw [vented]; rfl)).startProgram.law
  · exact h.updJacket_same rfl
  · exact h

end Sys2Proof.Machine
end

section
/-! SUPPORT. Faults, reports, outcomes, requests and reception keep the law of R83; every step does (O57), and the state after reset meets every law
(O60). -/
namespace Sys2Proof.Machine

variable {X X' : JacketNo → Prop} {Y Y' : Nat → Prop} {c d : Controller} {n m : JacketNo} {r x : Record}

/-! ### Faults (R95) -/

theorem not_serves_of_rest {s : JacketState} (rest : s.stage = none) : ¬ s.serves = true := fun serves => by
  have := ((serves_iff_stage _).mp serves).1
  rw [rest] at this
  cases this

theorem not_restart_of_rest {s : JacketState} (rest : s.stage = none) : s ≠ .recovering .restart := fun e => by
  rw [e] at rest
  cases rest

/-- A jacket that serves none pairs with none. -/
theorem not_pairs_of_rest (rest : (c.jacket n).state.stage = none) (p : c.Pairs n r) : False := by
  have stage := (pairs_iff.mp p).2.2.2.1
  rw [rest] at stage
  cases stage

/-- A jacket goes to a state that serves no record, and the record it served is left out. -/
theorem PairedBut.unserve {f : Jacket → Jacket} (h : PairedBut (fun m => m = n) noSlot c)
    (rest : (f (c.jacket n)).state.stage = none) :
    PairedBut noJacket (fun s => (c.jacket n).slot = some s) (c.updJacket n f) :=
  h.updJacket (fun _ p _ => .inl p.slot) (fun _ _ out => out.elim) (fun s => (not_serves_of_rest rest s).elim)
    (fun e => (not_restart_of_rest rest e).elim) fun _ other same => (other same).elim

/-- A jacket that serves no record changes to a state that serves none. -/
theorem PairedBut.updJacket_rest {f : Jacket → Jacket} (h : PairedBut X Y c) (before : (c.jacket n).state.stage = none)
    (after_ : (f (c.jacket n)).state.stage = none) : PairedBut X Y (c.updJacket n f) :=
  h.updJacket (fun _ p _ => (not_pairs_of_rest before p).elim) (fun _ _ out => .inl out)
    (fun s => (not_serves_of_rest after_ s).elim) (fun e => (not_restart_of_rest after_ e).elim) fun _ _ => id

/-- The record that a faulted jacket served is held (R95, step 2). -/
theorem holdServed_pairedBut (h : PairedBut noJacket (fun s => (c.jacket n).slot = some s) c)
    (own : ∀ m r, c.Pairs m r → (c.jacket n).slot ≠ some r.slot) : PairedBut noJacket noSlot (c.holdServed n) := by
  unfold Controller.holdServed
  split
  · next none_ =>
    refine h.settle fun r hr out _ => ?_
    unfold Controller.served at none_
    rw [out, Option.bind_some, recordAt_of_mem h.distinct hr] at none_
    cases none_
  · next r found =>
    obtain ⟨slot, place, here⟩ := Option.bind_eq_some_iff.mp found
    obtain rfl := recordAt_slot here
    refine (raise_serves _ _ _ _).pairedBut (holdRecord_pairedBut h (fun m x p at_ => ?_) (fun _ => id) fun s out => .inl ?_)
    · exact (own m x p (by rw [at_, place])).elim
    · exact (Option.some.inj (place.symm.trans out)).symm

theorem holdRecord_sameButOwed (c : Controller) (slot : Nat) (cause : HeldCause) : SameButOwed c (c.holdRecord slot cause) := by
  unfold Controller.holdRecord
  split
  · exact .refl
  · split
    · exact .refl
    · exact (cancelOrders_serves _ _).jackets

theorem holdServed_jacket (c : Controller) (n m : JacketNo) :
    ∃ owed, (c.holdServed n).jacket m = { c.jacket m with owedCommand := owed } := by
  unfold Controller.holdServed
  split
  · exact ⟨_, rfl⟩
  · rw [(raise_onlyPlaces _ _ _ _).jacket]
    exact ⟨_, holdRecord_sameButOwed _ _ _ m⟩

/-- A fault of a jacket whose slot no other jacket names (R95). -/
theorem faultJacket_pairedBut (h : PairedBut (fun m => m = n) noSlot c) (cause : FaultCause)
    (own : ∀ m r, c.Pairs m r → m ≠ n → (c.jacket n).slot ≠ some r.slot) : PairedBut noJacket noSlot (c.faultJacket n cause) := by
  unfold Controller.faultJacket
  dsimp only
  split
  · next fault =>
    refine ⟨h.sound, h.pending, h.records, fun m serves => .inr ((h.jackets m serves).resolve_left fun same => ?_), h.restarted⟩
    subst same
    cases e : (c.jacket m).state <;> simp_all [JacketState.isFault, JacketState.serves]
  · have self : (c.updJacket n fun j => { j with state := .fault cause }).jacket n = { c.jacket n with state := .fault cause } := by
      rw [jacket_updJacket, if_pos rfl]
    have faulted := h.unserve (f := fun j => { j with state := .fault cause }) rfl
    have held : PairedBut noJacket noSlot ((c.updJacket n fun j => { j with state := .fault cause }).holdServed n) := by
      refine holdServed_pairedBut (by rw [self]; exact faulted) fun m r p => ?_
      rw [self]
      by_cases same : m = n
      · subst same
        exact (not_pairs_of_rest (by rw [self]; rfl) p).elim
      · exact own m r ((pairs_updJacket_other same).mp p) same
    obtain ⟨owed, resting⟩ := holdServed_jacket (c.updJacket n fun j => { j with state := .fault cause }) n n
    have rest : (((c.updJacket n fun j => { j with state := .fault cause }).holdServed n).jacket n).state.stage = none := by
      rw [resting, self]; rfl
    have cleared := held.updJacket_rest (f := fun j => { j with slot := none }) rest rest
    refine (raise_serves _ _ _ _).pairedBut ((dropCommands_serves _ _ _).pairedBut ?_)
    split
    · exact (makeVent_serves _ _).pairedBut cleared
    · exact cleared

/-- No other jacket names the record of a jacket that serves one. -/
theorem own_of_serves (h : PairedBut noJacket noSlot c)
    (serves : (c.jacket n).state.serves = true ∨ (c.jacket n).state = .recovering .restart) :
    ∀ m r, c.Pairs m r → m ≠ n → (c.jacket n).slot ≠ some r.slot := fun m r p other same => by
  rcases serves with serves | restart
  · obtain ⟨x, q⟩ := (h.jackets n serves).resolve_left id
    obtain rfl := eq_of_slot h.distinct p.mem q.mem (Option.some.inj (same.symm.trans q.slot))
    exact other (pairs_jacket p q)
  · rw [h.restarted n restart] at same
    cases same

theorem faultJacket_law (h : PairedBut noJacket noSlot c) (cause : FaultCause)
    (serves : (c.jacket n).state.serves = true ∨ (c.jacket n).state = .recovering .restart) :
    PairedBut noJacket noSlot (c.faultJacket n cause) :=
  faultJacket_pairedBut (h.weaken (fun _ => False.elim) fun _ => id) cause (own_of_serves h serves)

theorem pressing_serves {s : JacketState} (h : s.pressing = true) : s.serves = true ∨ s = .recovering .restart := by
  cases s with
  | running b => exact .inl rfl
  | recovering reason => cases reason <;> first | exact .inl rfl | exact .inr rfl
  | _ => cases h

/-! ### Reports at the register (R55 to R72, R161 to R164) -/

theorem awaiting_ok {serial : Serial} {s : RecordState} (h : c.awaiting serial s = .ok r) :
    r ∈ c.records ∧ r.state = s ∧ r.releasePending = false := by
  unfold Controller.awaiting at h
  split at h
  · cases h
  · next found =>
    split at h
    · next fits => obtain rfl := Except.ok.inj h; exact ⟨find_mem found, fits⟩
    · cases h

/-- What the law asks of the record in a slot, once it is known to be one record of the list. -/
theorem at_slot {p : Record → Prop} (distinct : c.SlotsDistinct) (hr : r ∈ c.records) (hp : p r) :
    ∀ x ∈ c.records, x.slot = r.slot → p x := fun x hx at_ => by
  obtain rfl := eq_of_slot distinct hx hr at_
  exact hp

/-- An update that keeps the view keeps what is known of a slot. -/
theorem at_slot_updRecord {p : Record → Prop} {f : Record → Record} {slot : Nat} (hp : ∀ r, p r → p (f r)) (h : ∀ x ∈ c.records, x.slot = slot → p x) : ∀ x ∈ (c.updRecord slot f).records, x.slot = slot → p x :=
  fun x hx at_ => by
    rcases mem_updRecord hx with ⟨r, hr, here, rfl⟩ | ⟨-, other⟩
    · exact hp r (h r hr here)
    · exact (other at_).elim

/-- The record in a slot is in a state that no jacket serves, and its release is not pending. -/
def Free (slot : Nat) (c : Controller) : Prop :=
  ∀ x ∈ c.records, x.slot = slot → (¬ x.state.bound ∧ x.state ≠ .unloading) ∧ x.releasePending = false

theorem Free.unserved {slot : Nat} (h : Free slot c) : Unserved slot c := unserved_of_state fun x hx at_ => (h x hx at_).1

theorem Free.notPending {slot : Nat} (h : Free slot c) : ∀ x ∈ c.records, x.slot = slot → x.releasePending = false :=
  fun x hx at_ => (h x hx at_).2

theorem free_of_state {s : RecordState} (distinct : c.SlotsDistinct) (hr : r ∈ c.records) (state : r.state = s) (unbound : ¬ s.bound)
    (notLoaded : s ≠ .unloading) (free : r.releasePending = false) : Free r.slot c :=
  at_slot distinct hr ⟨⟨state ▸ unbound, state ▸ notLoaded⟩, free⟩

theorem Free.updRecord {slot : Nat} {f : Record → Record} (h : Free slot c) (same : ∀ r, (f r).view = r.view) :
    Free slot (c.updRecord slot f) :=
  at_slot_updRecord (fun r k => by
    obtain ⟨-, -, state, -, flag⟩ := view_record (same r)
    rw [state, flag]
    exact k) h

theorem admitted_unbound : ¬ RecordState.admitted.bound := not_bound (by decide) (by decide)
theorem weighed_unbound : ¬ RecordState.weighed.bound := not_bound (by decide) (by decide)

theorem condemn_pairedBut {slot : Nat} {cause : FailCause} (h : PairedBut X Y c) (free : Free slot c) :
    PairedBut X Y (c.condemn slot cause) := by
  let f : Record → Record := fun r => { r with verdict := some (.fail cause) }
  have same (r : Record) : (f r).view = r.view := rfl
  exact route_pairedBut (h.updRecord_same same) (free.updRecord same).unserved (free.updRecord same).notPending

theorem stray_pairedBut (h : PairedBut X Y c) (role : Role) (serial : Serial) (cause : StrayCause) :
    PairedBut X Y (c.stray role serial cause) := (raise_serves _ _ _ _).pairedBut h

theorem takeMass_pairedBut (h : PairedBut X Y c) (serial : Serial) (mass : Nat) : PairedBut X Y (c.takeMass serial mass) := by
  unfold Controller.takeMass
  split
  · exact stray_pairedBut h _ _ _
  · next r found =>
    obtain ⟨hr, state, free⟩ := awaiting_ok found
    have free := free_of_state h.distinct hr state admitted_unbound (by decide) free
    let f : Record → Record := fun r => { r with mass := some mass }
    have same (r : Record) : (f r).view = r.view := rfl
    have massed : PairedBut X Y (c.updRecord r.slot f) := h.updRecord_same same
    have free : Free r.slot (c.updRecord r.slot f) := free.updRecord same
    have weighed : PairedBut X Y ((c.updRecord r.slot f).updRecord r.slot fun r => { r with state := .weighed }) := by
      refine massed.updRecord_unserved (fun _ => ⟨rfl, rfl⟩) (fun x hx at_ flag => ?_) free.unserved fun _ => weighed_unbound
      have flag : x.releasePending = true := flag
      rw [free.notPending x hx at_] at flag
      cases flag
    dsimp only
    split
    · exact weighed
    · split
      · exact divert_pairedBut massed free.unserved
      · exact condemn_pairedBut massed free
      · exact divert_pairedBut massed free.unserved
      · exact weighed

theorem takeFindings_pairedBut (h : PairedBut X Y c) (serial : Serial) (codes : List Nat) :
    PairedBut X Y (c.takeFindings serial codes) := by
  unfold Controller.takeFindings
  split
  · exact stray_pairedBut h _ _ _
  · split
    · exact stray_pairedBut h _ _ _
    · next r found =>
      obtain ⟨hr, state, free⟩ := awaiting_ok found
      have free := free_of_state h.distinct hr state weighed_unbound (by decide) free
      let f : Record → Record := fun r => { r with findings := some codes }
      have same (r : Record) : (f r).view = r.view := rfl
      have found_ : PairedBut X Y (c.updRecord r.slot f) := h.updRecord_same same
      have free : Free r.slot (c.updRecord r.slot f) := free.updRecord same
      dsimp only
      split
      · exact enterWaiting_pairedBut found_ free.unserved free.notPending
      · split
        · exact divert_pairedBut found_ free.unserved
        · exact condemn_pairedBut found_ free
        · exact divert_pairedBut found_ free.unserved
        · exact enterWaiting_pairedBut found_ free.unserved free.notPending

theorem takeStamp_pairedBut (h : PairedBut X Y c) (serial : Serial) (outcome struck : Nat) :
    PairedBut X Y (c.takeStamp serial outcome struck) := by
  unfold Controller.takeStamp
  split
  · exact stray_pairedBut h _ _ _
  · split
    · exact stray_pairedBut h _ _ _
    · next r found =>
      obtain ⟨hr, state, free⟩ := awaiting_ok found
      have free := free_of_state h.distinct hr state stamping_unbound (by decide) free
      dsimp only
      split
      · refine (makeOrders_serves _ _ _).pairedBut ((cancelOrders_serves _ _).pairedBut ?_)
        exact h.updRecord_unserved (fun _ => ⟨rfl, rfl⟩) (fun _ _ _ _ => .inl rfl) free.unserved fun _ => leaving_unbound
      · let f : Record → Record := fun x => { x with stampProgress := some (struck, (r.marks c.line.items.plantCode).length) }
        have same (r : Record) : (f r).view = r.view := rfl
        exact (raise_serves _ _ _ _).pairedBut (holdRecord_unserved (h.updRecord_same same) (free.updRecord same).unserved)

theorem Serves.leavable {slot : Nat} (k : Serves c d) (h : ∀ x ∈ c.records, x.slot = slot → x.state.leavable) :
    ∀ x ∈ d.records, x.slot = slot → x.state.leavable := fun x hx at_ => by
  obtain ⟨r, hr, same⟩ := k.from_record hx
  obtain ⟨slot', -, state, -⟩ := view_record (bare_view same)
  rw [← state]
  exact h r hr (slot'.trans at_)

theorem takeScrap_pairedBut (h : PairedBut X Y c) (serial : Serial) (outcome : Nat) : PairedBut X Y (c.takeScrap serial outcome) := by
  unfold Controller.takeScrap
  split
  · exact stray_pairedBut h _ _ _
  · split
    · exact stray_pairedBut h _ _ _
    · next r found =>
      obtain ⟨hr, state, free⟩ := awaiting_ok found
      split
      · refine askRelease_pairedBut ((cancelOrders_serves _ _).pairedBut h) ((cancelOrders_serves _ _).leavable ?_)
        exact at_slot h.distinct hr (.inr (.inl state))
      · have free := free_of_state h.distinct hr state scrapping_unbound (by decide) free
        exact (raise_serves _ _ _ _).pairedBut (holdRecord_unserved h free.unserved)

/-! ### Reports at a jacket (R85 to R88, R114) -/

/-- The arrival of the cylinder a jacket awaits (R86). -/
theorem arrive_pairedBut (h : PairedBut noJacket noSlot c) (awaiting : (c.jacket n).state = .awaiting) :
    PairedBut noJacket noSlot (c.arrive n) := by
  obtain ⟨r, p⟩ := (h.jackets n (by rw [awaiting]; rfl)).resolve_left id
  obtain ⟨hr, names, place, -, cylinder⟩ := pairs_iff.mp p
  have awaited : (c.jacket n).awaited = some r.serial := by
    unfold Jacket.cylinder at cylinder
    rwa [if_pos awaiting] at cylinder
  have served : c.servedSlot n = r.slot := PairedBut.servedSlot p
  unfold Controller.arrive
  rw [served]
  let f : Record → Record := fun r => { r with state := .testing }
  let g : Jacket → Jacket := fun j => { j with loaded := j.awaited, awaited := none }
  have tested : PairedBut (fun m => m = n) (fun s => s = r.slot) (c.updRecord r.slot f) := by
    refine h.updRecord (fun _ => ⟨rfl, rfl⟩) (fun x hx at_ flag => ?_) (fun m x q at_ => ?_) (fun _ _ _ _ => rfl)
      (fun _ => False.elim) fun _ => False.elim
    · obtain rfl := eq_of_slot h.distinct hx hr at_
      have flag : x.releasePending = true := flag
      rw [h.notPending p] at flag
      cases flag
    · obtain rfl := eq_of_slot h.distinct q.mem hr at_
      exact pairs_jacket q p
  have cancelled := (cancelOrders_serves (c.updRecord r.slot f) r.slot).pairedBut tested
  have jacket : ((c.updRecord r.slot f).cancelOrders r.slot).jacket n =
      { c.jacket n with owedCommand := (((c.updRecord r.slot f).cancelOrders r.slot).jacket n).owedCommand } :=
    (cancelOrders_serves (c.updRecord r.slot f) r.slot).jackets n
  have state : (((c.updRecord r.slot f).cancelOrders r.slot).jacket n).state = .awaiting := by rw [jacket]; exact awaiting
  obtain ⟨x, hx, same⟩ : ∃ x ∈ ((c.updRecord r.slot f).cancelOrders r.slot).records, x.view = (f r).view := by
    have here : (f r).bare ∈ ((c.updRecord r.slot f).records.map Record.bare).filter Record.stays :=
      List.mem_filter.mpr ⟨List.mem_map_of_mem (mem_updRecord_self hr rfl), by
        have := h.notPending p
        simpa [Record.stays, Record.bare, f] using this⟩
    rw [← (cancelOrders_serves (c.updRecord r.slot f) r.slot).standing tested.distinct] at here
    obtain ⟨x, hx, same⟩ := List.mem_map.mp (List.mem_filter.mp here).1
    exact ⟨x, hx, bare_view same⟩
  obtain ⟨slotX, serialX, stateX, jacketX, -⟩ := view_record same
  have noPair (y : Record) (q : ((c.updRecord r.slot f).cancelOrders r.slot).Pairs n y) : y.state.bound → y.slot = r.slot := fun _ => by
    have := q.slot
    rw [jacket] at this
    exact (Option.some.inj (place.symm.trans this)).symm
  have loaded : PairedBut (fun m => m = n) (fun s => s = r.slot) (((c.updRecord r.slot f).cancelOrders r.slot).updJacket n g) := by
    refine cancelled.updJacket (fun y q b => .inl (noPair y q b)) (fun _ _ out => .inl out) (fun _ => .inl rfl) (fun e => ?_)
      fun _ _ => id
    have e : (((c.updRecord r.slot f).cancelOrders r.slot).jacket n).state = .recovering .restart := e
    rw [state] at e
    cases e
  have ready : Ready n r.slot (((c.updRecord r.slot f).cancelOrders r.slot).updJacket n g) := by
    refine ⟨x, hx, slotX, stateX, jacketX.trans names, ?_, ?_⟩
    · rw [jacket_updJacket, if_pos rfl, jacket]; exact place
    · rw [jacket_updJacket, if_pos rfl, jacket, serialX]; exact awaited
  dsimp only
  split
  · exact (startProgram_atWork ready loaded).law
  · exact (ready.toStage (f := fun j => { j with state := .heldVented }) loaded rfl (fun e => nomatch e) rfl rfl).law

/-- The jacket of a record that is no longer ROUTED returns to IDLE (R88, R89). -/
theorem freeAwaiting_pairedBut (h : PairedBut (fun k => X k ∨ k = n) noSlot c)
    (freed : (c.jacket n).state.serves = true → (c.jacket n).state = .awaiting)
    (unnamed : ∀ r, c.Pairs n r → ¬ r.state.bound) : PairedBut X noSlot (c.freeAwaiting n) := by
  unfold Controller.freeAwaiting
  split
  · exact h.emptied rfl (by decide) (fun r p b => (unnamed r p b).elim) fun m other out => out.resolve_right other
  · next other =>
    refine ⟨h.sound, h.pending, h.records, fun m serves => ?_, h.restarted⟩
    refine (h.jackets m serves).imp_left fun out => out.resolve_right fun same => ?_
    subst same
    exact other (freed serves)

/-- A ROUTED record is held, and the jacket that awaited it is freed (R87 to R89). -/
theorem hold_free_pairedBut {cause : HeldCause} (h : PairedBut X noSlot c) (hr : r ∈ c.records) (routed : r.state = .routed)
    (names : r.jacket = some n) (free : r.releasePending = false) :
    PairedBut X noSlot ((c.holdRecord r.slot cause).freeAwaiting n) := by
  obtain ⟨k, p⟩ := (h.records r hr (.inl routed)).resolve_left id
  obtain ⟨-, names', place, stage, -⟩ := pairs_iff.mp p
  obtain rfl : k = n := Option.some.inj (names'.symm.trans names)
  have awaiting : (c.jacket k).state = .awaiting := by
    rw [routed] at stage
    cases e : (c.jacket k).state <;> rw [e] at stage <;> first | rfl | cases stage
  have held : c.holdRecord r.slot cause =
      (c.updRecord r.slot fun r => { r with state := .manualHeld, heldCause := some cause }).cancelOrders r.slot := by
    unfold Controller.holdRecord
    rw [recordAt_of_mem h.distinct hr]
    dsimp only
    rw [if_neg]
    rw [free, routed]
    exact fun e => e.elim (fun e => nomatch e) fun e => nomatch e
  have serves := cancelOrders_serves (c.updRecord r.slot fun r => { r with state := .manualHeld, heldCause := some cause }) r.slot
  rw [← held] at serves
  have jacket : ((c.holdRecord r.slot cause).jacket k).state = .awaiting := by
    rw [serves.jackets k]
    exact awaiting
  refine freeAwaiting_pairedBut ?_ (fun _ => jacket) fun x q b => ?_
  · refine holdRecord_pairedBut h (fun m x q at_ => .inr ?_) (fun _ => .inl) fun _ => .inr
    obtain rfl := eq_of_slot h.distinct q.mem hr at_
    exact pairs_jacket q p
  · obtain ⟨y, hy, same⟩ := serves.from_record q.mem
    obtain ⟨slot, -, state, -⟩ := view_record (bare_view same)
    have at_ : y.slot = r.slot := by
      have := q.slot
      rw [serves.jackets k] at this
      rw [slot]
      exact (Option.some.inj (place.symm.trans this)).symm
    rcases mem_updRecord hy with ⟨z, -, -, rfl⟩ | ⟨-, other⟩
    · rw [← state] at b
      exact manualHeld_unbound b
    · exact other at_

theorem holdMisrouted_pairedBut (h : PairedBut X noSlot c) (hr : r ∈ c.records) : PairedBut X noSlot (c.holdMisrouted r) := by
  unfold Controller.holdMisrouted
  split
  · next misroutes =>
    obtain ⟨misroutes, free⟩ := misroutes
    dsimp only
    split
    · next m routed names => exact jacketPass_pairedBut (hold_free_pairedBut h hr routed names free) m
    · next other =>
      have held (unserved : Unserved r.slot c) : PairedBut X noSlot (c.holdRecord r.slot .misroute) := holdRecord_unserved h unserved
      by_cases routed : r.state = .routed
      · obtain ⟨k, p⟩ := (h.records r hr (.inl routed)).resolve_left id
        exact (other k routed (pairs_iff.mp p).2.1).elim
      · refine held (unserved_of_state (at_slot h.distinct hr ⟨fun b => ?_, fun e => ?_⟩))
        · rcases b with e | e
          · exact routed e
          · rw [e] at misroutes; cases misroutes
        · rw [e] at misroutes; cases misroutes
  · exact h

/-- The record in a slot is held (R43). -/
def HeldIn (slot : Nat) (c : Controller) : Prop := ∀ x ∈ c.records, x.slot = slot → x.state = .manualHeld

/-- No record that names a jacket names jacket n. -/
def Unnamed (n : JacketNo) (c : Controller) : Prop := ∀ x ∈ c.records, x.state.bound → x.jacket ≠ some n

theorem Serves.unnamed (k : Serves c d) (h : Unnamed n c) : Unnamed n d := fun x hx b => by
  obtain ⟨r, hr, same⟩ := k.from_record hx
  obtain ⟨-, -, state, names, -⟩ := view_record (bare_view same)
  rw [← names]
  exact h r hr (state ▸ b)

theorem Unnamed.updRecord {slot : Nat} {f : Record → Record} (h : Unnamed n c) (named : ∀ r, (f r).state.bound → (f r).jacket ≠ some n) :
    Unnamed n (c.updRecord slot f) := fun x hx b => by
  rcases mem_updRecord hx with ⟨r, -, -, rfl⟩ | ⟨hx, -⟩
  · exact named r b
  · exact h x hx b

theorem Unnamed.holdRecord (h : Unnamed n c) (slot : Nat) (cause : HeldCause) : Unnamed n (c.holdRecord slot cause) := by
  unfold Controller.holdRecord
  split
  · exact h
  · split
    · exact h
    · exact (cancelOrders_serves _ _).unnamed (h.updRecord fun _ b => (manualHeld_unbound b).elim)

theorem Unnamed.jacketPass (h : Unnamed n c) (other : m ≠ n) : Unnamed n (c.jacketPass m) := by
  have depth (k : Nat) (c : Controller) (h : Unnamed n c) : Unnamed n (Controller.jacketPassDepth k c m) := by
    induction k generalizing c with
    | zero => exact h
    | succ k ih =>
      unfold Controller.jacketPassDepth
      split
      · exact h
      · split
        · exact (makeOrders_serves _ _ _).unnamed (h.updRecord (f := fun r => { r with state := .routed, jacket := some m })
            fun _ _ e => other (Option.some.inj e))
        · exact ih _ ((raise_serves _ _ _ _).unnamed ((makeOrders_serves _ _ _).unnamed (h.updRecord
            (f := fun r => { r with verdict := some (.manual .program), state := .leaving }) fun _ b => (leaving_unbound b).elim)))
  unfold Controller.jacketPass
  split
  · exact depth _ c h
  · exact h

theorem Unnamed.holdMisrouted (h : Unnamed n c) (hr : r ∈ c.records) : Unnamed n (c.holdMisrouted r) := by
  have freed (c : Controller) (m : JacketNo) (h : Unnamed n c) : Unnamed n (c.freeAwaiting m) := by
    unfold Controller.freeAwaiting
    split
    · exact h
    · exact h
  unfold Controller.holdMisrouted
  split
  · dsimp only
    split
    · next m routed names =>
      refine (freed _ _ (h.holdRecord _ _)).jacketPass fun same => h r hr (.inl routed) ?_
      rw [names, same]
    · exact h.holdRecord _ _
  · exact h

/-- A record whose release is not pending is held (R43). -/
theorem holdRecord_heldIn (distinct : c.SlotsDistinct) (hr : r ∈ c.records) (free : r.releasePending = false)
    (cause : HeldCause) : HeldIn r.slot (c.holdRecord r.slot cause) := by
  unfold Controller.holdRecord
  rw [recordAt_of_mem distinct hr]
  dsimp only
  split
  · next kept =>
    rw [free] at kept
    exact at_slot (p := fun r => r.state = .manualHeld) distinct hr (kept.resolve_left fun e => nomatch e)
  · intro x hx at_
    obtain ⟨y, hy, same⟩ := (cancelOrders_serves _ _).from_record hx
    obtain ⟨slot, -, state, -⟩ := view_record (bare_view same)
    rw [← state]
    rcases mem_updRecord hy with ⟨r, -, -, rfl⟩ | ⟨-, other⟩
    · rfl
    · exact (other (slot.trans at_)).elim

/-- A misroute holds both records and leaves the jacket in FAULT (R87). -/
theorem misroute_pairedBut (h : PairedBut noJacket noSlot c) (awaiting : (c.jacket n).state = .awaiting) (serial : Serial) :
    PairedBut noJacket noSlot (c.misroute n serial) := by
  obtain ⟨r, p⟩ := (h.jackets n (by rw [awaiting]; rfl)).resolve_left id
  have served : c.servedSlot n = r.slot := PairedBut.servedSlot p
  have stage := (pairs_iff.mp p).2.2.2.1
  have routed : r.state = .routed := by rw [awaiting] at stage; exact (Option.some.inj stage).symm
  unfold Controller.misroute
  rw [served]
  dsimp only
  refine (raise_serves _ _ _ _).pairedBut ?_
  have held : PairedBut (fun m => m = n) noSlot (c.holdRecord r.slot .misroute) := by
    refine holdRecord_pairedBut h (fun m x q at_ => ?_) (fun _ => False.elim) fun _ => .inr
    obtain rfl := eq_of_slot h.distinct q.mem p.mem at_
    exact pairs_jacket q p
  have faulted (d : Controller) (law : PairedBut (fun m => m = n) noSlot d) (unnamed : ∀ x, d.Pairs n x → ¬ x.state.bound) :
      PairedBut noJacket noSlot (d.updJacket n fun j =>
        { j with state := .fault .misroute, loaded := some serial, awaited := none, slot := none }) :=
    law.updJacket (fun x q b => (unnamed x q b).elim) (fun _ _ out => out.elim) (fun s => nomatch s) (fun e => nomatch e)
      fun m other same => (other same).elim
  have jacket : ((c.holdRecord r.slot .misroute).jacket n).slot = some r.slot := by
    rw [holdRecord_sameButOwed c r.slot .misroute n]
    exact p.slot
  have unnamed : Unnamed n (c.holdRecord r.slot .misroute) := fun x hx b names => by
    obtain ⟨k, q⟩ := (held.records x hx b).resolve_left id
    obtain rfl : k = n := Option.some.inj ((pairs_iff.mp q).2.1.symm.trans names)
    have state := holdRecord_heldIn h.distinct p.mem (h.notPending p) .misroute x hx (Option.some.inj (q.slot.symm.trans jacket))
    rw [state] at b
    exact manualHeld_unbound b
  have finished {d : Controller} (law : PairedBut (fun m => m = n) noSlot d) (unnamed : Unnamed n d) := faulted d law fun x q b =>
    unnamed x q.mem b (pairs_iff.mp q).2.1
  split
  · exact finished held unnamed
  · next x found => exact finished (holdMisrouted_pairedBut held (find_mem found)) (unnamed.holdMisrouted (find_mem found))

end Sys2Proof.Machine
end

section
/-! SUPPORT. The end of an unload, the classifier's reports, the outcomes of own frames and the requests keep the law of R83. -/
namespace Sys2Proof.Machine

variable {X X' : JacketNo → Prop} {Y Y' : Nat → Prop} {c d : Controller} {n m : JacketNo} {r x : Record}

/-! ### The end of an unload (R114) -/

/-- No jacket serves the record in a slot, and its release is not pending. -/
def Loose (slot : Nat) (c : Controller) : Prop := Unserved slot c ∧ ∀ x ∈ c.records, x.slot = slot → x.releasePending = false

theorem Serves.loose {slot : Nat} (k : Serves c d) (h : Loose slot c) : Loose slot d := by
  refine ⟨fun m x p at_ => ?_, fun x hx at_ => ?_⟩
  · obtain ⟨r, hr, same⟩ := k.from_record p.mem
    have jacket : (c.jacket m).view = (d.jacket m).view := by rw [k.jackets m]; rfl
    exact h.1 m r (pairs_of_view jacket hr (bare_view same) p) ((view_record (bare_view same)).1.trans at_)
  · obtain ⟨r, hr, same⟩ := k.from_record hx
    obtain ⟨slot', -, -, -, flag⟩ := view_record (bare_view same)
    rw [← flag]
    exact h.2 r hr (slot'.trans at_)

/-- A jacket that comes to rest serves no record. -/
theorem Loose.updJacket_rest {slot : Nat} {f : Jacket → Jacket} (h : Loose slot c) (rest : (f (c.jacket n)).state.stage = none) :
    Loose slot (c.updJacket n f) := by
  refine ⟨fun m x p => ?_, h.2⟩
  by_cases same : m = n
  · subst same
    exact (not_pairs_of_rest (by rw [jacket_updJacket, if_pos rfl]; exact rest) p).elim
  · exact h.1 m x ((pairs_updJacket_other same).mp p)

/-- A jacket lets go of its record. -/
theorem loose_updJacket {f : Jacket → Jacket} (law : PairedBut noJacket noSlot c) (p : c.Pairs n r) (gone : (f (c.jacket n)).slot = none) :
    Loose r.slot (c.updJacket n f) := by
  refine ⟨fun m x q at_ => ?_, at_slot law.distinct p.mem (law.notPending p)⟩
  by_cases same : m = n
  · subst same
    have slot := q.slot
    rw [jacket_updJacket, if_pos rfl, gone] at slot
    cases slot
  · have q := (pairs_updJacket_other same).mp q
    obtain rfl := eq_of_slot law.distinct q.mem p.mem at_
    exact same (pairs_jacket q p)

theorem faultJacket_loose {slot : Nat} {cause : FaultCause} (h : Loose slot c) (gone : (c.jacket n).slot = none) :
    Loose slot (c.faultJacket n cause) := by
  unfold Controller.faultJacket
  dsimp only
  split
  · exact h
  · have served : (c.updJacket n fun j => { j with state := .fault cause }).served n = none := by
      unfold Controller.served
      rw [jacket_updJacket, if_pos rfl]
      exact Option.bind_eq_none_iff.mpr fun s e => by rw [show (c.jacket n).slot = some s from e] at gone; cases gone
    unfold Controller.holdServed
    rw [served]
    refine (raise_serves _ _ _ _).loose ((dropCommands_serves _ _ _).loose ?_)
    have rest := (h.updJacket_rest (n := n) (f := fun j => { j with state := .fault cause }) rfl).updJacket_rest (n := n)
      (f := fun j => { j with slot := none }) (by rw [jacket_updJacket, if_pos rfl]; rfl)
    split
    · exact (makeVent_serves _ _).loose rest
    · exact rest

/-- The jacket whose unload ends comes to rest and lets go of its record (R114). -/
theorem finishUnload_law (law : PairedBut noJacket noSlot c) (p : c.Pairs n r) (unloading : (c.jacket n).state = .unloading) :
    PairedBut noJacket noSlot (c.finishUnload n) ∧ Loose r.slot (c.finishUnload n) := by
  have unbound (x : Record) (q : c.Pairs n x) : ¬ x.state.bound := by
    have stage := (pairs_iff.mp q).2.2.2.1
    rw [unloading] at stage
    rw [← Option.some.inj stage]
    exact unloading_unbound
  unfold Controller.finishUnload
  split
  · refine ⟨faultJacket_pairedBut ?_ _ fun m x _ _ same => ?_, faultJacket_loose (loose_updJacket law p rfl) ?_⟩
    · exact law.updJacket (fun x q b => (unbound x q b).elim) (fun _ _ out => out.elim) (fun _ => .inl rfl)
        (fun _ => rfl) fun _ _ out => out.elim
    · rw [jacket_updJacket, if_pos rfl] at same
      cases same
    · rw [jacket_updJacket, if_pos rfl]
  · exact ⟨law.emptied rfl (by decide) (fun x q b => (unbound x q b).elim) fun _ _ => id, loose_updJacket law p rfl⟩

theorem takeClear_pairedBut (law : PairedBut noJacket noSlot c) (serial : Serial) : PairedBut noJacket noSlot (c.takeClear n serial) := by
  unfold Controller.takeClear
  dsimp only
  split
  · next cleared =>
    have drops := dropCommands_serves c n fun k => k == .unload
    have unloading : ((c.dropCommands n fun k => k == .unload).jacket n).state = .unloading := by
      rw [drops.jackets n]; exact cleared.2
    have law0 := drops.pairedBut law
    obtain ⟨r, p⟩ := (law0.jackets n (by rw [unloading]; rfl)).resolve_left id
    have served : c.servedSlot n = r.slot := by
      have same : c.servedSlot n = (c.dropCommands n fun k => k == .unload).servedSlot n := by
        unfold Controller.servedSlot
        rw [drops.jackets n]
      rw [same]
      exact PairedBut.servedSlot p
    obtain ⟨finished, loose⟩ := finishUnload_law law0 p unloading
    refine jacketPass_pairedBut ?_ n
    rw [served]
    split
    · exact route_pairedBut finished loose.1 loose.2
    · exact enterWaiting_pairedBut finished loose.1 loose.2
    · exact finished
  · split
    · next faulted =>
      refine law.updJacket_rest (n := n) ?_ ?_ <;>
        · show (c.jacket n).state.stage = none
          cases e : (c.jacket n).state <;> first | rfl | (rw [e] at faulted; cases faulted.2)
    · exact stray_pairedBut law _ _ _

theorem takeArrival_pairedBut (law : PairedBut noJacket noSlot c) (serial : Serial) :
    PairedBut noJacket noSlot (c.takeArrival n serial) := by
  unfold Controller.takeArrival
  split
  · next awaiting =>
    split
    · exact arrive_pairedBut law awaiting
    · exact misroute_pairedBut law awaiting serial
  · exact stray_pairedBut law _ _ _

/-! ### Outcomes of own frames (R15, R57, R89, R90, R96, R165) -/

/-- The record in a slot, known by its state. -/
theorem unserved_at {s : RecordState} (distinct : c.SlotsDistinct) (hr : r ∈ c.records) (state : r.state = s) (unbound : ¬ s.bound)
    (notLoaded : s ≠ .unloading) : Unserved r.slot c :=
  unserved_of_state (at_slot distinct hr ⟨state ▸ unbound, state ▸ notLoaded⟩)

theorem orderLost_pairedBut (h : PairedBut X Y c) (unserved : Unserved r.slot c) (body : Body) : PairedBut X Y (c.orderLost r body) :=
  (raise_serves _ _ _ _).pairedBut (holdRecord_unserved h unserved)

theorem orderOutcome_pairedBut (h : PairedBut noJacket noSlot c) (hr : r ∈ c.records) (free : r.releasePending = false) {body : Body}
    (awaits : r.awaitsOutcome body = true) (delivered : Bool) : PairedBut noJacket noSlot (c.orderOutcome r body delivered) := by
  have lost {s : RecordState} (state : (r.state == s) = true) (unbound : ¬ s.bound) (notLoaded : s ≠ .unloading) :
      PairedBut noJacket noSlot (c.orderLost r body) :=
    orderLost_pairedBut h (unserved_at h.distinct hr (beq_iff_eq.mp state) unbound notLoaded) body
  have leaves (state : (r.state == .leaving) = true) : PairedBut noJacket noSlot (c.askRelease r.slot) :=
    askRelease_pairedBut h (at_slot h.distinct hr (.inl (beq_iff_eq.mp state)))
  unfold Controller.orderOutcome
  split
  · next n =>
    split
    · exact h
    · simp only [Record.awaitsOutcome, Bool.and_eq_true, beq_iff_eq] at awaits
      exact jacketPass_pairedBut ((raise_serves _ _ _ _).pairedBut (hold_free_pairedBut h hr awaits.1 awaits.2 free)) n
  · split
    · exact h
    · exact lost awaits stamping_unbound (by decide)
  · split
    · exact h
    · exact lost awaits scrapping_unbound (by decide)
  · split
    · exact h
    · exact lost awaits stamping_unbound (by decide)
  · split
    · exact h
    · exact lost awaits scrapping_unbound (by decide)
  · next lane noJacket_ noStamp noScrap =>
    have leaving : (r.state == .leaving) = true := by
      cases lane with
      | jacket n => exact (noJacket_ n rfl).elim
      | stamp => exact (noStamp rfl).elim
      | scrap => exact (noScrap rfl).elim
      | _ => exact awaits
    split
    · exact leaves leaving
    · exact lost leaving leaving_unbound (by decide)
  · exact h

theorem recordOutcome_pairedBut (h : PairedBut noJacket noSlot c) (slot : Nat) (e : OutEntry) (delivered : Bool) :
    PairedBut noJacket noSlot (c.recordOutcome slot e delivered) := by
  unfold Controller.recordOutcome
  split
  · exact h
  · next r found =>
    split
    · split
      · exact h
      · exact (raise_serves _ _ _ _).pairedBut h
    · split
      · next due => exact orderOutcome_pairedBut h (recordAt_mem found) due.2.1 due.2.2 delivered
      · exact h

theorem infeedLost_serves (c : Controller) (o : InfeedOrder) : Serves c (c.infeedLost o) := by
  unfold Controller.infeedLost
  dsimp only
  split
  · exact (raise_serves _ _ _ _).trans (offerInfeed_onlyPlaces _ _ _).serves
  · exact raise_serves _ _ _ _

theorem commandLost_pairedBut (h : PairedBut noJacket noSlot c) (n : JacketNo) : PairedBut noJacket noSlot (c.commandLost n) := by
  unfold Controller.commandLost
  split
  · next state => exact faultJacket_law h _ (.inl (by rw [state]; rfl))
  · next state => exact faultJacket_law h _ (pressing_serves (by rw [state]; rfl))
  · next state => exact faultJacket_law h _ (.inl (by rw [state]; rfl))
  · next state => exact faultJacket_law h _ (.inl (by rw [state]; rfl))
  · exact h
  · exact h
  · exact h
  · exact h

theorem outcome_pairedBut (h : PairedBut noJacket noSlot c) (e : OutEntry) (delivered : Bool) :
    PairedBut noJacket noSlot (c.outcome e delivered) := by
  unfold Controller.outcome
  split
  · exact recordOutcome_pairedBut h _ _ _
  · split
    · exact h
    · exact commandLost_pairedBut h _
  · split
    · split
      · exact h
      · exact (infeedLost_serves _ _).pairedBut h
    · exact h
  · split
    · exact h
    · exact (raise_serves _ _ _ _).pairedBut h
  · exact h
  · exact h
  · exact h

theorem popOldest_pairedBut (h : PairedBut noJacket noSlot c) (delivered : Bool) : PairedBut noJacket noSlot (c.popOldest delivered) := by
  unfold Controller.popOldest
  split
  · exact h
  · exact outcome_pairedBut ((setOutstanding_serves _ _).pairedBut h) _ _

theorem popLost_pairedBut (k : Nat) (h : PairedBut noJacket noSlot c) : PairedBut noJacket noSlot (Controller.popLost k c) := by
  induction k generalizing c with
  | zero => exact h
  | succ k ih => exact ih (popOldest_pairedBut h false)

theorem matchReturn_pairedBut (h : PairedBut noJacket noSlot c) (sequence : Nat) (taken : Bool) :
    PairedBut noJacket noSlot (c.matchReturn sequence taken) := by
  unfold Controller.matchReturn
  split
  · exact h
  · exact popOldest_pairedBut (popLost_pairedBut _ h) taken

theorem expire_pairedBut (h : PairedBut noJacket noSlot c) : PairedBut noJacket noSlot c.expire := by
  have depth (k : Nat) (c : Controller) (h : PairedBut noJacket noSlot c) : PairedBut noJacket noSlot (Controller.expireDepth k c) := by
    induction k generalizing c with
    | zero => exact h
    | succ k ih =>
      unfold Controller.expireDepth
      split
      · exact h
      · split
        · exact ih _ (popOldest_pairedBut h false)
        · exact h
  exact depth _ c h

end Sys2Proof.Machine
end

section
/-! SUPPORT. Line Control, the requests, the receiver and the transmitter keep the law of R83; so every step does (O57), and the state after reset meets
every law (O60). -/
namespace Sys2Proof.Machine

variable {c d : Controller} {n m : JacketNo} {r x : Record}

/-- The law of R83 with nothing left out. -/
abbrev Law (c : Controller) : Prop := PairedBut noJacket noSlot c

/-! ### Reports (R5) -/

theorem admission_law (h : Law c) (acts : c.actsOnTags = true) (tag : EntryTag) (e : TypeEntry) (w : Option Window)
    (fresh : c.recordOf tag.serial = none) : Law (c.admission tag e w) := by
  refine (judge_serves _ _).pairedBut ⟨?_, fun x hx flag => ?_, fun x hx b => ?_, fun k serves => ?_, h.restarted⟩
  · exact registerSound_admission h.sound ((actsOnTags_iff _).mp acts).2.1 tag e w fresh
  · rcases List.mem_append.mp hx with old | new
    · exact h.pending x old flag
    · rw [List.mem_singleton.mp new] at flag
      cases flag
  · rcases List.mem_append.mp hx with old | new
    · obtain ⟨k, p⟩ := (h.records x old b).resolve_left id
      exact .inr ⟨k, pairs_of_view (c := c) rfl (List.mem_append_left _ old) rfl p⟩
    · rw [List.mem_singleton.mp new] at b
      exact (admitted_unbound b).elim
  · obtain ⟨r, p⟩ := (h.jackets k serves).resolve_left id
    exact .inr ⟨r, pairs_of_view (c := c) rfl (List.mem_append_left _ p.mem) rfl p⟩

theorem gateOnly_serves (c : Controller) (serial : Serial) (lane : GateDest) : Serves c (c.gateOnly serial lane) :=
  (enqueue_onlyPlaces _ _ _ _ _).serves.trans (judge_serves _ _)

theorem takeTag_law (h : Law c) (tag : EntryTag) : Law (c.takeTag tag) := by
  unfold Controller.takeTag
  split
  · next acts =>
    split
    · exact (gateOnly_serves _ _ _).pairedBut h
    · exact ((gateOnly_serves _ _ _).trans (raise_serves _ _ _ _)).pairedBut h
    · next e w screened => exact admission_law h acts tag e w (screen_fresh screened)
  · exact (judge_serves _ _).pairedBut h

theorem jacketReport_law (h : Law c) (n : JacketNo) (kind : Nat) (payload : List Byte) : Law (c.jacketReport n kind payload) := by
  unfold Controller.jacketReport
  split
  · split
    · exact takeArrival_pairedBut h _
    · exact stray_pairedBut h _ _ _
  · split
    · exact takeSample_pairedBut h _
    · exact stray_pairedBut h _ _ _
  · split
    · exact takeClear_pairedBut h _
    · exact stray_pairedBut h _ _ _
  · exact h

theorem classify_law (h : Law c) (source kind : Nat) (payload : List Byte) : Law (c.classify source kind payload) := by
  unfold Controller.classify
  split
  · split
    · exact takeTag_law h _
    · exact stray_pairedBut h _ _ _
  · split
    · exact takeMass_pairedBut h _ _
    · exact stray_pairedBut h _ _ _
  · split
    · exact takeFindings_pairedBut h _ _
    · exact stray_pairedBut h _ _ _
  · split
    · exact takeStamp_pairedBut h _ _ _
    · exact stray_pairedBut h _ _ _
  · split
    · exact takeScrap_pairedBut h _ _
    · exact stray_pairedBut h _ _ _
  · exact jacketReport_law h _ _ _
  · exact h

/-! ### Line Control (R14, R170 to R176) -/

/-- What the law speaks of stays as it is. -/
theorem PairedBut.of_same (h : Law c) (jackets : d.jackets = c.jackets) (records : d.records = c.records) : Law d :=
  h.of_same_views (fun n => by unfold Controller.jacket; rw [jackets]) (by rw [records])

theorem enterHolding_law (h : Law c) (cause : HoldCause) : Law (c.enterHolding cause) := by
  unfold Controller.enterHolding
  refine (raise_serves _ _ _ _).pairedBut ((judge_serves _ _).pairedBut ?_)
  refine foldl_pairedBut (fun _ n h => jacketHold_pairedBut h n) _ ((purge_serves _).pairedBut ?_)
  exact PairedBut.of_same (c := c) h (by rw [setCause_eq]) (by rw [setCause_eq])

theorem addCause_law (h : Law c) (cause : HoldCause) : Law (c.addCause cause) := by
  unfold Controller.addCause
  split
  · exact h.of_same (by rw [setCause_eq]) (by rw [setCause_eq])
  · exact enterHolding_law h cause

theorem ringGoesDown_law (h : Law c) : Law c.ringGoesDown := by
  have status : Law (c.setRingStatus .down) := h.of_same rfl rfl
  unfold Controller.ringGoesDown
  dsimp only
  split
  · exact status
  · exact popLost_pairedBut _ (addCause_law status .ring)

theorem ringGoesUp_law (h : Law c) : Law c.ringGoesUp := by
  have status : Law (c.setRingStatus .up) := h.of_same rfl rfl
  unfold Controller.ringGoesUp
  dsimp only
  split
  · exact status
  · exact (raise_serves _ _ _ _).pairedBut (status.of_same (by rw [setCause_eq]) (by rw [setCause_eq]))

theorem startLine_law (h : Law c) (ok : c.startLine = .ok d) : Law d := by
  unfold Controller.startLine at ok
  split at ok
  · cases ok
  · split at ok
    · cases ok
    · split at ok
      · cases ok
      · split at ok
        · cases ok
        · obtain rfl := Except.ok.inj ok
          exact jacketPasses_pairedBut ((judge_serves _ _).pairedBut (PairedBut.of_same (c := c) h rfl rfl))

theorem stopLine_law (h : Law c) (ok : c.stopLine = .ok d) : Law d := by
  unfold Controller.stopLine at ok
  split at ok
  · cases ok
  · split at ok
    · obtain rfl := Except.ok.inj ok
      exact (judge_serves _ _).pairedBut (PairedBut.of_same (c := c) h rfl rfl)
    · obtain rfl := Except.ok.inj ok
      exact jacketPasses_pairedBut ((judge_serves _ _).pairedBut (PairedBut.of_same (c := c) h rfl rfl))

theorem resumeState_law (h : Law c) : Law c.resumeState := by
  unfold Controller.resumeState
  split
  · exact (raise_serves _ _ _ _).pairedBut (PairedBut.of_same (c := c) h rfl rfl)
  · exact PairedBut.of_same (c := c) h rfl rfl

theorem resumeLine_law (h : Law c) (ok : c.resumeLine = .ok d) : Law d := by
  unfold Controller.resumeLine at ok
  split at ok
  · cases ok
  · split at ok
    · cases ok
    · obtain rfl := Except.ok.inj ok
      have resumed := (arbitrate_serves _).pairedBut ((judge_serves false _).pairedBut (resumeState_law h))
      split
      · exact jacketPasses_pairedBut (foldl_pairedBut (fun _ n h => jacketResume_pairedBut h n) _ resumed)
      · exact resumed

/-- After RESTART the register is empty and no jacket serves a record (R62, R120). -/
theorem Jacket.restart_unserving (j : Jacket) :
    j.restart.state.serves = false ∧ (j.restart.state = .recovering .restart → j.restart.slot = none) := by
  unfold Jacket.restart
  dsimp only
  split
  · exact ⟨rfl, fun _ => rfl⟩
  · exact ⟨rfl, fun _ => rfl⟩
  · exact ⟨rfl, fun e => nomatch e⟩

theorem restartBlocks_law (c : Controller) : Law c.restartBlocks where
  sound := ⟨Nat.zero_le _, List.nodup_nil, List.nodup_nil, fun _ hr => nomatch hr⟩
  pending _ hr := nomatch hr
  records _ hr := nomatch hr
  jackets n serves := by
    rw [jacket_mapped (c := c) rfl, (c.jacket n).restart_unserving.1] at serves
    cases serves
  restarted n e := by
    rw [jacket_mapped (c := c) rfl] at e ⊢
    exact (c.jacket n).restart_unserving.2 e

theorem restartVent_serves (c : Controller) (n : JacketNo) : Serves c (c.restartVent n) := by
  unfold Controller.restartVent
  split
  · exact offerCommand_serves _ _ _
  · exact .refl

theorem restartLine_law (ok : c.restartLine = .ok d) : Law d := by
  unfold Controller.restartLine at ok
  split at ok
  · cases ok
  · obtain rfl := Except.ok.inj ok
    refine (offerInfeed_onlyPlaces _ _ _).serves.pairedBut ((foldl_serves restartVent_serves _ _).pairedBut ?_)
    exact (afterFreeing_serves _).pairedBut (restartBlocks_law c)

theorem setDate_law (h : Law c) {date : Date} (ok : c.setDate date = .ok d) : Law d := by
  unfold Controller.setDate at ok
  split at ok
  · cases ok
  · dsimp only at ok
    split at ok
    · obtain rfl := Except.ok.inj ok; exact h.of_same rfl rfl
    · obtain rfl := Except.ok.inj ok; exact h.of_same rfl rfl

/-! ### Commands of a jacket, of a record and of the notices (R60, R117 to R119, R180) -/

/-- A jacket in DISABLED or FAULT takes no record on. -/
theorem stage_of_rest {s : JacketState} (h : s = .disabled ∨ s.isFault = true) : s.stage = none := by
  rcases h with rfl | fault
  · rfl
  · cases s <;> first | rfl | cases fault

theorem enableJacket_law (h : Law c) (ok : c.enableJacket n = .ok d) : Law d := by
  unfold Controller.enableJacket at ok
  split at ok
  · cases ok
  · next rest =>
    split at ok
    · cases ok
    · obtain rfl := Except.ok.inj ok
      have idle : Law (c.updJacket n fun _ => { Jacket.powerOn with state := .idle }) :=
        h.updJacket_rest (stage_of_rest (not_not.mp rest)) rfl
      refine jacketPass_pairedBut ?_ n
      exact PairedBut.of_same (c := c.updJacket n fun _ => { Jacket.powerOn with state := .idle }) idle rfl rfl

theorem disableJacket_law (h : Law c) (ok : c.disableJacket n = .ok d) : Law d := by
  unfold Controller.disableJacket at ok
  split at ok
  · next rest =>
    obtain rfl := Except.ok.inj ok
    refine h.updJacket_rest ?_ rfl
    rcases rest with idle | fault
    · rw [idle]; rfl
    · exact stage_of_rest (.inr fault)
  · cases ok

theorem abortJacket_law (h : Law c) (ok : c.abortJacket n = .ok d) : Law d := by
  unfold Controller.abortJacket at ok
  split at ok
  · next b running =>
    obtain rfl := Except.ok.inj ok
    exact (ventInto_atWork (atWork_of_running h running) (by decide)).law
  · cases ok

theorem releaseSerial_law (h : Law c) {serial : Serial} (ok : c.releaseSerial serial = .ok d) : Law d := by
  unfold Controller.releaseSerial at ok
  split at ok
  · cases ok
  · next r found =>
    split at ok
    · cases ok
    · next held =>
      split at ok
      · obtain rfl := Except.ok.inj ok; exact h
      · obtain rfl := Except.ok.inj ok
        exact askRelease_pairedBut h (at_slot h.distinct (find_mem found) (.inr (.inr (not_not.mp held))))

theorem setEnables_serves {enables : List Byte} (ok : c.setEnables enables = .ok d) : Serves c d := by
  unfold Controller.setEnables at ok
  split at ok
  · obtain rfl := Except.ok.inj ok
    exact (foldl_serves (fun c cls => updNotice_serves c cls _) _ _).trans (setQueue_serves _ _)
  · cases ok

theorem testNotice_serves {code : Nat} (ok : c.testNotice code = .ok d) : Serves c d := by
  unfold Controller.testNotice at ok
  split at ok
  · cases ok
  · obtain rfl := Except.ok.inj ok
    exact (updNotice_serves _ _ _).trans (offerNotice_onlyPlaces _ _).serves

theorem onJacket_law {f : JacketNo → Except Reason Controller} (h : ∀ n d, f n = .ok d → Law d) {b : Byte} (ok : onJacket f b = .ok d) :
    Law d := by
  unfold onJacket at ok
  split at ok
  · cases ok
  · exact h _ _ ok

theorem commandAction_law (h : Law c) {code : Nat} {fields : List Byte} (ok : c.commandAction code fields = .ok d) : Law d := by
  by_cases config : code = 6
  · subst config
    obtain ⟨item, value, -, set⟩ := commandAction_config ok
    obtain ⟨items, -, rfl⟩ := setConfig_ok set
    exact h.of_same rfl rfl
  unfold Controller.commandAction at ok
  split at ok
  · exact startLine_law h ok
  · exact stopLine_law h ok
  · exact resumeLine_law h ok
  · exact restartLine_law ok
  · exact setDate_law h ok
  · exact (config rfl).elim
  · exact onJacket_law (fun _ _ => enableJacket_law h) ok
  · exact onJacket_law (fun _ _ => disableJacket_law h) ok
  · exact onJacket_law (fun _ _ => abortJacket_law h) ok
  · exact releaseSerial_law h ok
  · exact (setEnables_serves ok).pairedBut h
  · exact (testNotice_serves ok).pairedBut h
  · cases ok

/-! ### Requests (R181) -/

theorem writeRecord_law (h : Law c) {i : Nat} {w : TableRecord} (ok : c.writeRecord i w = .ok d) : Law d := by
  obtain ⟨t, places, -⟩ := writeRecord_written ok
  exact places.serves.pairedBut (PairedBut.of_same (c := c) h rfl rfl)

theorem writeRecords_law (first count : Nat) (l : List TableRecord) (c : Controller) (i : Nat) (h : Law c) :
    Law (Controller.writeRecords first count c i l).part := by
  induction l generalizing c i with
  | nil => exact h
  | cons r l ih =>
    unfold Controller.writeRecords
    split
    · next written => exact ih _ _ (writeRecord_law h written)
    · exact h

theorem tableWrite_law (h : Law c) (p : List Byte) : Law (c.tableWrite p).part := by
  unfold Controller.tableWrite
  split
  · dsimp only
    split
    · exact h
    · split
      · exact h
      · split
        · exact h
        · exact writeRecords_law _ _ _ _ _ h
  · exact h

theorem command_law (h : Law c) (p : List Byte) : Law (c.command p).part := by
  unfold Controller.command
  split
  · exact h
  · unfold Controller.commandAnswer
    split
    · next ok => exact commandAction_law h ok
    · exact h

theorem judgeRequest_law (h : Law c) (p : List Byte) : Law (c.judgeRequest p).part := by
  unfold Controller.judgeRequest
  split
  · exact h
  · split
    · exact tableWrite_law h _
    · rw [tableRead_part]; exact h
    · exact command_law h _
    · obtain ⟨f, e⟩ := jacketView_part c ‹List Byte›; rw [e]; exact h.of_same rfl rfl
    · rw [recordView_part]; exact h
    · rw [registerList_part]; exact h
    · exact h

theorem request_law (h : Law c) (source : Nat) (p : List Byte) : Law (c.request source p) := by
  have answered : Law (Controller.reply source p (c.judgeRequest p)) := by
    unfold Controller.reply
    exact (offerReply_onlyPlaces _).serves.pairedBut (PairedBut.of_same (judgeRequest_law h p) (d := (c.judgeRequest p).part.setBuffer _)
      rfl rfl)
  unfold Controller.request
  dsimp only
  split
  · exact (offerNotices_onlyPlaces _).serves.pairedBut answered
  · exact answered

/-! ### The receiver, the transmitter and the timers -/

theorem passOn_law (h : Law c) (f : Frame) : Law (c.passOn f) := by
  have placed (bytes : List Byte) : Law (c.placeForward bytes) := h.of_same rfl rfl
  unfold Controller.passOn
  split
  · exact h
  · split
    · split
      · exact request_law (c := (c.placeForward f.markTaken.wire).setBuffer .taken) (PairedBut.of_same (c := c) h rfl rfl) _ _
      · exact placed _
    · exact classify_law (placed _) _ _ _

theorem bypassFrame_law (h : Law c) (bytes : List Byte) : Law (c.bypassFrame bytes) := by
  unfold Controller.bypassFrame
  split
  · exact h.of_same rfl rfl
  · exact h

theorem accept_law (h : Law c) (f : Frame) : Law (c.accept f) := by
  unfold Controller.accept
  split
  · exact matchReturn_pairedBut h _ _
  · exact passOn_law h f

theorem receiveFrame_law (h : Law c) (f : Frame) : Law (c.receiveFrame f) := by
  unfold Controller.receiveFrame
  split
  · exact bypassFrame_law h _
  · split
    · exact h
    · exact accept_law h f

theorem receiveBytes_law (h : Law c) (bytes : List Byte) : Law (c.receiveBytes bytes) := by
  unfold Controller.receiveBytes
  split
  · exact bypassFrame_law h _
  · split
    · exact h
    · exact accept_law h _

theorem startOwn_law (h : Law c) (e : QueueEntry) : Law (c.startOwn e) :=
  (afterFreeing_serves _).pairedBut (PairedBut.of_same (c := c) h rfl rfl)

theorem transmit_law (h : Law c) : Law c.transmit := by
  unfold Controller.transmit
  split
  · exact h
  · split
    · exact h
    · exact startOwn_law h _
    · exact h.of_same rfl rfl
    · split
      · exact startOwn_law h _
      · exact h.of_same rfl rfl

theorem Jacket.tick_view (up : Bool) (j : Jacket) : (j.tick up).view = j.view := by
  unfold Jacket.tick
  split <;> rfl

theorem tick_law (h : Law c) : Law c.tick :=
  h.of_same_views (fun n => by rw [jacket_mapped (c := c) (d := c.tick) rfl, Jacket.tick_view]) rfl

/-- Every command but POWER_ON keeps the law of R83. -/
theorem Effect.law {i : Instr} (e : Effect c i d) (h : Law c) : Law d := by
  have either {p : Prop} [Decidable p] {a : Controller} (ha : p → Law a) : Law (if p then a else c) := by
    split
    · next yes => exact ha yes
    · exact h
  cases e with
  | frame f => exact receiveFrame_law h f
  | discarded b => exact receiveBytes_law h b
  | forwarded b => exact receiveBytes_law h b
  | hold =>
    split
    · exact h
    · exact addCause_law h _
  | unhold =>
    split
    · exact h
    · exact h.of_same (by rw [setCause_eq]) (by rw [setCause_eq])
  | lockLost => exact h.of_same (by rw [setLock_eq]) (by rw [setLock_eq])
  | lockRegained => exact h.of_same (by rw [setLock_eq]) (by rw [setLock_eq])
  | ringDown => exact either fun _ => ringGoesDown_law h
  | ringUp => exact either fun _ => ringGoesUp_law h
  | start => exact transmit_law h
  | complete => exact h.of_same (by rw [completeTransmission_eq]) (by rw [completeTransmission_eq])
  | expire => exact expire_pairedBut h
  | timeLimit n =>
    refine either fun reached => ?_
    simp only [Controller.timeLimitReached, Bool.and_eq_true] at reached
    cases state : (c.jacket n).state with
    | running b => exact (earlyEnd_atWork (atWork_of_running h state)).law
    | _ => rw [state] at reached; cases reached.1
  | dwellEnd n =>
    refine either fun reached => ?_
    simp only [Controller.dwellReached, Bool.and_eq_true, beq_iff_eq] at reached
    exact completeBlock_pairedBut (atWork_of_running h reached.1)
  | silent n =>
    refine either fun reached => ?_
    simp only [Controller.silent, Bool.and_eq_true] at reached
    exact faultJacket_law h _ (pressing_serves reached.1)
  | ventLimit n =>
    refine either fun reached => ?_
    unfold Controller.ventLimitReached at reached
    split at reached
    · next reason state => exact faultJacket_law h _ (pressing_serves (by rw [state]; rfl))
    · cases reached

theorem powerOn_law (a : NodeAddress) : Law (Controller.powerOn a) where
  sound := powerOn_registerSound a
  pending _ hr := nomatch hr
  records _ hr := nomatch hr
  jackets n serves := by rw [powerOn_jacket] at serves; cases serves
  restarted n e := by rw [powerOn_jacket] at e; cases e

theorem poweredOn_law (straps : NodeAddress) (hold : Bool) : Law (poweredOn straps hold) := by
  unfold poweredOn
  dsimp only
  split
  · exact addCause_law (powerOn_law straps) _
  · exact powerOn_law straps

theorem step_law : KeptByEveryStep Controller.Paired := by
  intro s t h paired
  rw [paired_iff] at paired ⊢
  unfold step at h
  split at h
  · rw [← Host.Outcome.next.inj h]; exact tick_law paired
  · next c rest _ =>
    cases power : isPowerOn c with
    | true =>
      cases c <;> try cases power
      rw [← Host.Outcome.next.inj h]
      exact poweredOn_law _ _
    | false => exact (effect_of_exec h power).law paired

/-! ### The laws of the jackets (O57) and the state after reset (O60) -/

/-- A ROUTED or TESTING record names one jacket, which awaits or holds its cylinder. -/
theorem names_of_pairs (p : c.Pairs n r) (bound : r.state.bound) :
    r.jacket = some n ∧ (((c.jacket n).state = .awaiting ∧ (c.jacket n).awaited = some r.serial) ∨
      (((c.jacket n).state.pressing = true ∨ (c.jacket n).state = .heldVented) ∧ (c.jacket n).loaded = some r.serial)) := by
  obtain ⟨-, names, -, stage, cylinder⟩ := pairs_iff.mp p
  refine ⟨names, ?_⟩
  unfold Jacket.cylinder at cylinder
  cases state : (c.jacket n).state with
  | awaiting => rw [if_pos state] at cylinder; exact .inl ⟨rfl, cylinder⟩
  | running b => rw [if_neg (by rw [state]; exact nofun)] at cylinder; exact .inr ⟨.inl rfl, cylinder⟩
  | recovering reason => rw [if_neg (by rw [state]; exact nofun)] at cylinder; exact .inr ⟨.inl rfl, cylinder⟩
  | heldVented => rw [if_neg (by rw [state]; exact nofun)] at cylinder; exact .inr ⟨.inr rfl, cylinder⟩
  | unloading =>
    rw [state] at stage
    rw [← Option.some.inj stage] at bound
    exact (unloading_unbound bound).elim
  | disabled => rw [state] at stage; cases stage
  | idle => rw [state] at stage; cases stage
  | fault cause => rw [state] at stage; cases stage

/-- Settles O57: the fields of the jackets by the moves every step is made of; the law of R83 by a law with exceptions that holds within each step. -/
theorem jacketsStaySound : Obligations.JacketsStaySound := by
  refine ⟨⟨kept_of_moves (fun _ _ m h => m.verifiedToday h) powerOn_verifiedToday,
    kept_of_moves (fun _ _ m h => m.countsBounded h) powerOn_countsBounded⟩,
    kept_of_moves (fun _ _ m h => m.jacketsQuiet h) powerOn_jacketsQuiet, step_law, fun c paired r hr x hx boundR boundX => ?_⟩
  have law := paired_iff.mp paired
  obtain ⟨n, p⟩ := (law.records r hr boundR).resolve_left id
  obtain ⟨k, q⟩ := (law.records x hx boundX).resolve_left id
  refine ⟨⟨n, names_of_pairs p boundR⟩, fun same => ?_⟩
  obtain rfl : n = k := Option.some.inj ((pairs_iff.mp p).2.1.symm.trans (same.trans (pairs_iff.mp q).2.1))
  exact pairs_unique law.distinct p q

/-- Settles O60: reset is a power-on, and a power-on meets every law. -/
theorem resetIsSound : Obligations.ResetIsSound :=
  ⟨⟨Nat.zero_le _, Nat.zero_le _⟩, Nat.zero_le _, ⟨Nat.zero_lt_succ _, Nat.zero_le _, rfl⟩, powerOn_registerSound _,
    ⟨fun _ => rfl, fun _ _ => rfl, fun s => LineState.noConfusion s⟩, fun _ => ⟨.inl rfl, rfl⟩, fun s => LineState.noConfusion s,
    powerOn_judged _, powerOn_verifiedToday _, powerOn_countsBounded _, powerOn_jacketsQuiet _, paired_iff.mpr (powerOn_law _),
    powerOn_windowsSound, powerOn_mapSound _, powerOn_typesSound, powerOn_blocksSound, powerOn_itemsSound, powerOn_bypassQuiet _⟩

end Sys2Proof.Machine
end

section
/-! SUPPORT. Requests that only answer (R181): bad requests (O46), reads (O49), record forms read back (O50) and jacket views (O51). -/
namespace Sys2Proof.Machine

/-! ### A request that only answers -/

/-- The reply of a payload, which may be empty (R181). -/
def payloadKind (payload : List Byte) : Nat := (payload.head?.map BitVec.toNat).getD 0

theorem answered_onlyPlaces {c : Controller} {payload : List Byte} {a : Answer} (answer : c.judgeRequest payload = a) (source : Nat) :
    OnlyPlaces (a.part.setBuffer (.holding { destination := source, kind := payloadKind payload, reason := a.reason, data := a.data }))
      (c.request source payload) := by
  unfold Controller.request Controller.reply
  rw [answer]
  dsimp only
  split
  · exact (offerReply_onlyPlaces _).trans (offerNotices_onlyPlaces _)
  · exact offerReply_onlyPlaces _

/-- An action that leaves the part as it was taken, and the frozen views aside, answers alone. -/
theorem answered_onlyAnswers {c : Controller} {frame payload : List Byte} {a : Answer} {f : Option FrozenViews}
    (answer : (c.taken frame).judgeRequest payload = a) (alone : a.part = c.taken frame ∨ a.part = (c.taken frame).setFrozen f) (source : Nat) :
    c.OnlyAnswers ((c.taken frame).request source payload) frame := by
  obtain ⟨-, ring, tables, records, jackets, verification, line, -⟩ := answered_onlyPlaces answer source
  refine ⟨?_, ?_, ?_, ?_, ?_, tables.trans ?_, records.trans ?_, jackets.trans ?_, verification.trans ?_, line.trans ?_⟩ <;>
    first
    | (rw [ring]; rcases alone with e | e <;> rw [e] <;> rfl)
    | (rcases alone with e | e <;> rw [e] <;> rfl)

/-- A command that carries a MANAGE frame with this payload, which a part that takes it only answers, with this reason and these data. -/
def AnswersAlone (s : State) (h : Header) (i : Instr) (payload : List Byte) (kind : Nat) (reason : Option Reason) (data : List Byte) : Prop :=
  s.part.Takes h payload.length → ∃ t : Controller, exec i s = .next (s.withPart t) ∧
    s.part.OnlyAnswers t (manageFrame h payload).markTaken.wire ∧ t.Replied (replyTo h kind reason data)

theorem answersAlone_of {s : State} {h : Header} {i : Instr} {payload : List Byte} {reason : Option Reason} {data : List Byte}
    (run : exec i s = .next (s.withPart (s.part.receiveFrame (manageFrame h payload))))
    (answer : ∀ c : Controller, c.tables = s.part.tables → c.records = s.part.records → c.jackets = s.part.jackets →
      c.verification = s.part.verification → c.line = s.part.line → c.ring.nodeAddress = s.part.ring.nodeAddress →
      c.judgeRequest payload = { part := c, reason, data }) :
    AnswersAlone s h i payload (payloadKind payload) reason data := fun takes => by
  have answer := answer (s.part.taken (manageFrame h payload).markTaken.wire) rfl rfl rfl rfl rfl rfl
  rw [receiveFrame_request takes] at run
  exact ⟨_, run, answered_onlyAnswers answer (f := none) (.inl rfl) _, (answered_onlyPlaces answer _).replied _ (.inl rfl)⟩

/-- A request refused whatever the part. -/
theorem refusedAlone_of {s : State} {h : Header} {i : Instr} {payload : List Byte} {reason : Option Reason} {data : List Byte}
    (run : exec i s = .next (s.withPart (s.part.receiveFrame (manageFrame h payload))))
    (answer : ∀ c : Controller, c.judgeRequest payload = { part := c, reason, data }) :
    AnswersAlone s h i payload (payloadKind payload) reason data := answersAlone_of run fun c _ _ _ _ _ _ => answer c

/-! ### Bad requests (R181, R183) -/

/-- Bytes after the code of a command, SET CONFIG apart (R183). -/
def commandFields : Nat → Nat
  | 1 | 2 | 3 | 4 => 0
  | 5 | 10 => 4
  | 11 => 12
  | _ => 1

theorem commandAction_of_length (c : Controller) {code : Nat} {fields : List Byte} (known : 1 ≤ code ∧ code ≤ 12) (other : code ≠ 6)
    (bad : fields.length ≠ commandFields code) : c.commandAction code fields = .error .badField := by
  unfold Controller.commandAction
  split
  all_goals first
    | exact (bad rfl).elim
    | exact (other rfl).elim
    | rw [inRange, decide_eq_true known.1, decide_eq_true known.2]; rfl

theorem judgeRequest_of_length (c : Controller) {code : Byte} {fields : List Byte} (known : 1 ≤ code.toNat ∧ code.toNat ≤ 12)
    (other : code.toNat ≠ 6) (bad : fields.length ≠ commandFields code.toNat) :
    c.judgeRequest (3 :: code :: fields) = { part := c, reason := some .badField, data := [code] } := by
  have asked : c.judgeRequest (3 :: code :: fields) = c.commandAnswer code.toNat (c.commandAction code.toNat fields) := rfl
  rw [asked, commandAction_of_length c known other bad]
  simp [Controller.commandAnswer, field1]

theorem judgeRequest_of_item (c : Controller) {item : Byte} {value : List Byte} (bad : value.length ≠ if item = 0 then 4 else 2) :
    c.judgeRequest (3 :: 6 :: item :: value) = { part := c, reason := some .badField, data := [6] } := by
  have asked : c.judgeRequest (3 :: 6 :: item :: value) = c.commandAnswer 6
    (if value.length = (if item.toNat = 0 then 4 else 2) then c.setConfig item.toNat value else .error .badField) := rfl
  have zero : item.toNat = 0 ↔ item = 0 := by rw [← BitVec.toNat_inj]; rfl
  rw [asked, if_neg (by simpa only [zero] using bad)]
  rfl

theorem judgeRequest_of_kind (c : Controller) {kind : Byte} (rest : List Byte) (bad : kind.toNat = 0 ∨ 6 < kind.toNat) :
    c.judgeRequest (kind :: rest) = { part := c, reason := some .unsupported, data := [] } := by
  unfold Controller.judgeRequest
  dsimp only
  split <;> first | omega | rfl

theorem judgeRequest_of_code (c : Controller) {code : Byte} (rest : List Byte) (bad : code.toNat = 0 ∨ 12 < code.toNat) :
    c.judgeRequest (3 :: code :: rest) = { part := c, reason := some .unsupported, data := [code] } := by
  have asked : c.judgeRequest (3 :: code :: rest) = c.commandAnswer code.toNat (c.commandAction code.toNat rest) := rfl
  have refused : c.commandAction code.toNat rest = .error .unsupported := by
    unfold Controller.commandAction
    generalize code.toNat = k at bad
    split
    all_goals first
      | omega
      | rw [if_neg]
        simp only [inRange, Bool.and_eq_true, decide_eq_true_eq]
        omega
  rw [asked, refused]
  simp [Controller.commandAnswer, field1]

/-- A jacket number above 7 names no jacket. -/
theorem jacketOfNumber_above {k : Nat} (above : 7 < k) : jacketOfNumber k = none := dif_neg (by omega)

theorem onJacket_above (f : JacketNo → Except Reason Controller) {number : Byte} (above : 7 < number.toNat) :
    onJacket f number = .error .badIndex := by
  rw [onJacket, jacketOfNumber_above above]

theorem readSerial_of_length {l : List Byte} (h : l.length ≠ 4) : readSerial l = none := by
  unfold readSerial
  split
  · exact (h rfl).elim
  · rfl

theorem recordView_of_length (c : Controller) {fields : List Byte} (bad : fields.length ≠ 4) :
    c.recordView fields = c.refuse .badField := by
  rw [Controller.recordView, readSerial_of_length bad]

theorem registerList_of_length (c : Controller) {fields : List Byte} (bad : fields.length ≠ 1) :
    c.registerList fields = c.refuse .badField := by
  unfold Controller.registerList
  split
  · exact (bad rfl).elim
  · rfl

theorem tableRead_of_length (c : Controller) {fields : List Byte} (bad : fields.length ≠ 3) :
    c.tableRead fields = c.refuse .badField := by
  unfold Controller.tableRead
  split
  · exact (bad rfl).elim
  · rfl

theorem tableWrite_of_length (c : Controller) {fields : List Byte} (bad : fields.length < 4) :
    c.tableWrite fields = c.refuse .badField := by
  unfold Controller.tableWrite
  split
  · simp at bad; omega
  · rfl

theorem jacketView_of_length (c : Controller) {fields : List Byte} (bad : fields.length = 0 ∨ 2 < fields.length) :
    c.jacketView fields = c.refuse .badField := by
  unfold Controller.jacketView
  split
  · simp at bad
  · simp at bad
  · rfl

/-- The mode of a view fixes its length (R181). -/
theorem jacketView_of_mode (c : Controller) {mode : Byte} {fields : List Byte}
    (bad : (mode = 2 → fields ≠ []) ∧ (mode = 0 ∨ mode = 1 → fields.length ≠ 1)) : c.jacketView (mode :: fields) = c.refuse .badField := by
  obtain ⟨two, one⟩ := bad
  match fields with
  | [] =>
    have : mode ≠ 2 := fun e => two e rfl
    exact if_neg this
  | [number] =>
    have zero : mode ≠ 0 := fun e => one (.inl e) rfl
    have first : mode ≠ 1 := fun e => one (.inr e) rfl
    exact (if_neg zero).trans (if_neg first)
  | _ :: _ :: _ => rfl

theorem tableOfCode_of_bad {k : Nat} (bad : k = 0 ∨ 5 < k) : tableOfCode k = none := by
  unfold tableOfCode
  split <;> first | omega | rfl

/-- The data of a refused TABLE WRITE are its index and its count as they came (R181). -/
theorem writeRefused_data (i1 i2 count : Byte) : field2 (read2 i1 i2) ++ field1 count.toNat = [i1, i2, count] := by
  have low : BitVec.ofNat 8 (read2 i1 i2) = i2 := by
    apply BitVec.eq_of_toNat_eq
    rw [BitVec.toNat_ofNat, read2]
    omega
  have high : BitVec.ofNat 8 (read2 i1 i2 / 256) = i1 := by
    apply BitVec.eq_of_toNat_eq
    rw [BitVec.toNat_ofNat, read2]
    omega
  simp [field1, field2, low, high]

theorem readTableRecords_one {t : TableName} {recs : List Byte} (h : readTableRecords t 1 recs ≠ none) :
    ∃ r, readTableRecords t 1 recs = some [r] ∧ readTableRecord t (recs.take t.recordSize) = some r := by
  unfold readTableRecords at h ⊢
  split at h
  · next r rs read rest =>
    unfold readTableRecords at rest
    split at rest
    · obtain rfl := Option.some.inj rest
      exact ⟨r, rfl, read⟩
    · cases rest
    · cases ‹0 = _ + 1›
  · exact (h rfl).elim

/-- A record is of the table it was read for. -/
theorem writeRecord_outside {t : TableName} {bytes : List Byte} {r : TableRecord} (c : Controller) {i : Nat}
    (h : readTableRecord t bytes = some r) (outside : t.entries ≤ i) : c.writeRecord i r = .error .badIndex := by
  unfold readTableRecord at h
  cases t <;>
    · obtain ⟨x, -, rfl⟩ := Option.map_eq_some_iff.mp h
      exact dif_neg (Nat.not_lt.mpr outside)

theorem judgeRequest_write_table (c : Controller) {table : Byte} (i1 i2 count : Byte) (recs : List Byte)
    (bad : tableOfCode table.toNat = none) :
    c.judgeRequest (1 :: table :: i1 :: i2 :: count :: recs) = { part := c, reason := some .badTable, data := [i1, i2, count] } := by
  have asked : c.judgeRequest (1 :: table :: i1 :: i2 :: count :: recs) = c.tableWrite (table :: i1 :: i2 :: count :: recs) := rfl
  simp only [asked, Controller.tableWrite, bad, Controller.writeRefused, writeRefused_data]

theorem judgeRequest_write_count (c : Controller) {table count : Byte} {name : TableName} (i1 i2 : Byte) (recs : List Byte)
    (known : tableOfCode table.toNat = some name) (bad : count.toNat = 0 ∨ 8 < count.toNat) :
    c.judgeRequest (1 :: table :: i1 :: i2 :: count :: recs) = { part := c, reason := some .badField, data := [i1, i2, count] } := by
  have asked : c.judgeRequest (1 :: table :: i1 :: i2 :: count :: recs) = c.tableWrite (table :: i1 :: i2 :: count :: recs) := rfl
  have outside : inRange 1 8 count.toNat = false := by simp only [inRange, Bool.and_eq_false_iff, decide_eq_false_iff_not]; omega
  simp only [asked, Controller.tableWrite, known, outside, if_true, Controller.writeRefused, writeRefused_data]

/-- A TABLE WRITE of a count in range is of the records it carries (R35). -/
theorem judgeRequest_write (c : Controller) {table count : Byte} {name : TableName} (i1 i2 : Byte) (recs : List Byte)
    (known : tableOfCode table.toNat = some name) (inside : 1 ≤ count.toNat ∧ count.toNat ≤ 8) :
    c.judgeRequest (1 :: table :: i1 :: i2 :: count :: recs) =
      (readTableRecords name count.toNat recs).elim { part := c, reason := some .badField, data := [i1, i2, count] }
        (Controller.writeRecords (read2 i1 i2) count.toNat c (read2 i1 i2)) := by
  have asked : c.judgeRequest (1 :: table :: i1 :: i2 :: count :: recs) = c.tableWrite (table :: i1 :: i2 :: count :: recs) := rfl
  have range : inRange 1 8 count.toNat = true := by simp only [inRange, Bool.and_eq_true, decide_eq_true_eq]; omega
  simp only [asked, Controller.tableWrite, known, range, Bool.true_eq_false, if_false, Controller.writeRefused, writeRefused_data]
  cases readTableRecords name count.toNat recs <;> rfl

/-- A TABLE WRITE of one refused record (R36, R37). -/
theorem writeRecords_refused {c : Controller} {i : Nat} {r : TableRecord} {reason : Reason} (first count : Nat) (rest : List TableRecord)
    (refused : c.writeRecord i r = .error reason) :
    Controller.writeRecords first count c i (r :: rest) =
      { part := c, reason := some reason, data := field2 i ++ field1 (rest.length + 1) } := by
  rw [Controller.writeRecords, refused]

theorem field1_of_toNat {b : Byte} {k : Nat} (h : b.toNat = k) : field1 k = [b] := by
  rw [field1, ← h, BitVec.ofNat_toNat, BitVec.setWidth_eq]

theorem judgeRequest_write_index (c : Controller) {table count : Byte} {name : TableName} (i1 i2 : Byte) (recs : List Byte)
    (known : tableOfCode table.toNat = some name) (one : count.toNat = 1) (read : readTableRecords name 1 recs ≠ none)
    (outside : name.entries ≤ read2 i1 i2) :
    c.judgeRequest (1 :: table :: i1 :: i2 :: count :: recs) = { part := c, reason := some .badIndex, data := [i1, i2, count] } := by
  obtain ⟨r, whole, first⟩ := readTableRecords_one read
  have refused := writeRecords_refused (read2 i1 i2) 1 [] (writeRecord_outside c first outside)
  rw [judgeRequest_write c i1 i2 recs known (by omega), one, whole, Option.elim_some]
  rw [← writeRefused_data i1 i2 count, one]
  exact refused

/-- Settles O46: each request is refused by its first check, before anything is done. -/
theorem badRequestsAreRefused : Obligations.BadRequestsAreRefused := by
  intro s h
  have length (code : Byte) (known : 1 ≤ code.toNat ∧ code.toNat ≤ 12) (other : code.toNat ≠ 6) {i : List Byte → Instr}
      (run : ∀ fields, exec (i fields) s = .next (s.withPart (s.part.receiveFrame (manageFrame h (3 :: code :: fields)))))
      (fields : List Byte) (bad : fields.length ≠ commandFields code.toNat) :
      AnswersAlone s h (i fields) (3 :: code :: fields) 3 (some .badField) [code] :=
    refusedAlone_of (run fields) fun c => judgeRequest_of_length c known other bad
  refine ⟨⟨fun kind rest bad => refusedAlone_of rfl fun c => judgeRequest_of_kind c rest bad, refusedAlone_of rfl fun c => rfl,
    fun code rest bad => refusedAlone_of rfl fun c => judgeRequest_of_code c rest bad, refusedAlone_of rfl fun c => rfl⟩,
    ⟨length 1 (by decide) (by decide) fun _ => rfl, length 2 (by decide) (by decide) fun _ => rfl,
      length 3 (by decide) (by decide) fun _ => rfl, length 4 (by decide) (by decide) fun _ => rfl,
      length 5 (by decide) (by decide) fun _ => rfl, length 7 (by decide) (by decide) fun _ => rfl,
      length 8 (by decide) (by decide) fun _ => rfl, length 9 (by decide) (by decide) fun _ => rfl,
      length 10 (by decide) (by decide) fun _ => rfl, length 11 (by decide) (by decide) fun _ => rfl,
      length 12 (by decide) (by decide) fun _ => rfl, refusedAlone_of rfl fun c => rfl,
      fun item value bad => refusedAlone_of rfl fun c => judgeRequest_of_item c bad⟩,
    fun number above => ?_, fun fields => ?_, fun mode x => ?_, fun table i1 i2 count recs => ?_⟩
  · have command (f : Controller → JacketNo → Except Reason Controller) (c : Controller) (code : Nat) :
        c.commandAnswer code (onJacket (f c) number) = { part := c, reason := some .badIndex, data := field1 code } := by
      rw [onJacket_above _ above]
      rfl
    refine ⟨refusedAlone_of rfl fun c => command Controller.enableJacket c 7, refusedAlone_of rfl fun c => command Controller.disableJacket c 8,
      refusedAlone_of rfl fun c => command Controller.abortJacket c 9, refusedAlone_of rfl fun c => ?_⟩
    have live : c.liveView number = c.refuse .badIndex := by rw [Controller.liveView, jacketOfNumber_above above]
    exact live
  · refine ⟨fun bad => refusedAlone_of rfl fun c => recordView_of_length c bad, fun bad => refusedAlone_of rfl fun c => registerList_of_length c bad,
      fun bad => refusedAlone_of rfl fun c => tableRead_of_length c bad, fun bad => refusedAlone_of rfl fun c => tableWrite_of_length c bad,
      fun bad => refusedAlone_of rfl fun c => jacketView_of_length c bad, fun bad => refusedAlone_of rfl fun c => ?_,
      fun bad => refusedAlone_of rfl fun c => ?_⟩
    · exact jacketView_of_mode (mode := 1) c ⟨fun e => absurd e (by decide), fun _ => bad⟩
    · exact jacketView_of_mode (mode := 2) c ⟨fun _ => bad, fun e => absurd e (by decide)⟩
  · refine ⟨fun zero one => refusedAlone_of rfl fun c => ?_, fun two => refusedAlone_of rfl fun c => ?_⟩
    · exact jacketView_of_mode (fields := [x]) c ⟨fun _ => List.cons_ne_nil _ _, fun e => (e.elim zero one).elim⟩
    · exact jacketView_of_mode (fields := []) c ⟨fun e => (two e).elim, fun _ => Nat.zero_ne_one⟩
  · refine ⟨fun bad => refusedAlone_of rfl fun c => judgeRequest_write_table c i1 i2 count recs (tableOfCode_of_bad bad), fun name known =>
      ⟨fun bad => refusedAlone_of rfl fun c => judgeRequest_write_count c i1 i2 recs known bad,
        fun low high unread => refusedAlone_of rfl fun c => ?_,
        fun one read outside => refusedAlone_of rfl fun c => judgeRequest_write_index c i1 i2 recs known one read outside⟩⟩
    rw [judgeRequest_write c i1 i2 recs known ⟨low, high⟩, unread, Option.elim_none]

end Sys2Proof.Machine
end

section
/-! SUPPORT. The data of the views and of the reads, field by field (O49, O51), and the record forms of the tables read back (O50). -/
namespace Sys2Proof.Machine

/-! ### Fields on the wire (R182) -/

theorem append_congr {α : Type} {a b c d : List α} (h : a = c) (k : b = d) : a ++ b = c ++ d := by rw [h, k]

/-- Four bytes as two pairs. -/
theorem field4_eq (x : Nat) :
    field4 x = ([BitVec.ofNat 8 (x / 65536 / 256)] ++ [BitVec.ofNat 8 (x / 65536)]) ++ ([BitVec.ofNat 8 (x / 256)] ++ [BitVec.ofNat 8 x]) := by
  rw [Nat.div_div_eq_div_mul]
  rfl

theorem fieldFlag_eq (b : Bool) : fieldFlag b = if b then [1] else [0] := by cases b <;> rfl

/-- An optional field is its presence and its value, or as many bytes of 0. -/
theorem fieldOpt_eq {α : Type} (width : Nat) {absent : List Byte} (f g : α → List Byte) (x : Option α)
    (zero : absent = List.replicate width 0) (same : ∀ a, f a = g a) :
    fieldOpt absent f x = ((x.map g).map ([1] ++ ·)).getD (List.replicate (width + 1) 0) := by
  cases x with
  | none => rw [zero]; rfl
  | some a =>
    show fieldFlag true ++ f a = [1] ++ g a
    rw [same a]
    rfl

theorem length_flatMap_field1 (l : List Nat) : (l.flatMap field1).length = l.length := by
  induction l with
  | nil => rfl
  | cons a l ih => simp [field1]

theorem length_flatMap_orders (l : List Order) : (l.flatMap fun o => field1 o.kind).length = l.length := by
  induction l with
  | nil => rfl
  | cons a l ih => simp [field1]

theorem typeBytes_eq (e : TypeEntry) :
    e.bytes = fieldFlag e.valid ++ field1 e.size.code ++ field2 e.ptest ++ field1 e.window ++ field2 e.overpressure ++
      field2 e.ratioLimit ++ field2 (e.ree.getD 0) ++ field2 e.massLoss ++ field2 e.massGain ++ field1 e.interval ++
      field1 e.programStart ++ [e.suffix.getD 0] ++
      (match e.reference with | some x => field2 x.expected ++ field2 x.tolerance | none => [0, 0, 0, 0]) := by
  unfold TypeEntry.bytes
  rw [List.append_assoc]
  cases e.reference <;> rfl

/-! ### Reads (R38, R184, R185) -/

theorem judgeRequest_tableRead (c : Controller) (table i1 i2 : Byte) :
    c.judgeRequest [2, table, i1, i2] = c.tableRead [table, i1, i2] := rfl

theorem tableRead_known (c : Controller) {table i1 i2 : Byte} {name : TableName} (known : tableOfCode table.toNat = some name) :
    c.tableRead [table, i1, i2] = (c.tables.entryBytes name (read2 i1 i2)).elim (c.refuse .badIndex) c.answer := by
  simp only [Controller.tableRead, known]
  cases c.tables.entryBytes name (read2 i1 i2) <;> rfl

theorem entryBytes_outside (t : Tables) {name : TableName} {i : Nat} (outside : name.entries ≤ i) : t.entryBytes name i = none := by
  cases name <;> simp only [Tables.entryBytes, Option.map_eq_none_iff] <;> exact Vector.getElem?_eq_none outside

theorem recordOf_congr {c d : Controller} (records : d.records = c.records) (serial : Serial) : d.recordOf serial = c.recordOf serial := by
  rw [Controller.recordOf, records, Controller.recordOf]

theorem listBytes_congr {c d : Controller} (records : d.records = c.records) (line : d.line = c.line) (p : Nat) :
    d.listBytes p = c.listBytes p := by
  rw [Controller.listBytes, Controller.listed, records, line]
  rfl

/-- Settles O49: each read answers what the model's tables and register hold, whose data are compared field by field. -/
theorem readsAnswer : Obligations.ReadsAnswer := by
  refine ⟨fun s h table i1 i2 takes => ⟨fun bad => ?_, fun name known => ⟨fun outside => ?_, fun data found => ?_⟩⟩,
    fun s h => ⟨fun a b c d takes => ⟨fun r found => ?_, fun missing => ?_⟩, fun p takes => ⟨fun inside => ?_, fun outside => ?_⟩⟩, ?_⟩
  · refine refusedAlone_of rfl (fun c => ?_) takes
    rw [judgeRequest_tableRead, Controller.tableRead, tableOfCode_of_bad bad]
    rfl
  · refine refusedAlone_of rfl (fun c => ?_) takes
    rw [judgeRequest_tableRead, tableRead_known c known, entryBytes_outside _ outside]
    rfl
  · refine answersAlone_of rfl (fun c tables _ _ _ _ _ => ?_) takes
    rw [judgeRequest_tableRead, tableRead_known c known, tables, found]
    rfl
  · refine answersAlone_of rfl (fun x _ records _ _ _ _ => ?_) takes
    show x.recordView [a, b, c, d] = _
    simp only [Controller.recordView, readSerial, recordOf_congr records, found]
    rfl
  · refine answersAlone_of rfl (fun x _ records _ _ _ _ => ?_) takes
    show x.recordView [a, b, c, d] = _
    simp only [Controller.recordView, readSerial, recordOf_congr records, missing]
    rfl
  · refine answersAlone_of rfl (fun x _ records _ _ line _ => ?_) takes
    show (if 63 < p.toNat then x.refuse .badIndex else x.answer (x.listBytes p.toNat)) = _
    rw [if_neg (Nat.not_lt.mpr inside), listBytes_congr records line]
    rfl
  · refine refusedAlone_of rfl (fun x => ?_) takes
    show (if 63 < p.toNat then x.refuse .badIndex else x.answer (x.listBytes p.toNat)) = _
    rw [if_pos outside]
    rfl
  · intro one two four flag present date stateCode lineCode heldCode verdict outcome result order spec
    have stateOf (x : RecordState) : field1 x.code = one (stateCode x) := by cases x <;> rfl
    have lineOf (x : LineState) : field1 x.code = one (lineCode x) := by cases x <;> rfl
    have dateOf (x : Option Date) : fieldDateOpt x = date x := fieldOpt_eq 4 _ _ x rfl fun _ => rfl
    have verdictOf (x : Verdict) : x.bytes = verdict x := by
      cases x with
      | fail k => cases k <;> rfl
      | manual k => cases k <;> rfl
      | reference k => cases k <;> rfl
      | _ => rfl
    have outcomeOf (x : EvalOutcome) : field1 x.code ++ field1 x.causeCode = outcome x := by
      cases x with
      | fail k => cases k <;> rfl
      | invalid k => cases k <;> rfl
      | reference k => cases k <;> rfl
      | pass => rfl
    have resultOf (x : LastResult) : x.bytes = result x := by
      show _ = one x.jacket.val ++ one x.attempt ++ outcome x.outcome ++ _ ++ _ ++ _ ++ _ ++ _ ++ _
      rw [← outcomeOf, ← List.append_assoc]
      rfl
    have ordersOf (l : List Order) : (l.flatMap fun o => field1 o.kind) = l.flatMap order :=
      List.flatMap_congr fun o _ => by cases o <;> rfl
    have specOf (e : TypeEntry) : e.bytes = spec e := by
      rw [typeBytes_eq]
      refine append_congr ?_ rfl
      simp only [fieldFlag_eq]
      cases e.size <;> rfl
    have heldOf (x : HeldCause) : field1 x.code = one (heldCode x) := by cases x <;> rfl
    have findingsOf (l : List Nat) : field1 (l.flatMap field1).length ++ l.flatMap field1 = one l.length ++ l.flatMap one := by
      rw [length_flatMap_field1]
      rfl
    have countOf (c : Controller) (p : Nat) : field1 (c.listed p).length = one (min 8 (c.records.length - p)) := by
      rw [Controller.listed, List.length_take, List.length_drop]
      rfl
    have listedOf (l : List Record) : (l.flatMap fun r => field4 r.serial ++ field1 r.state.code) =
        l.flatMap fun r => four r.serial ++ one (stateCode r.state) :=
      List.flatMap_congr fun r _ => append_congr (field4_eq _) (stateOf _)
    refine ⟨fun r => ?_, fun c p => ?_⟩
    · unfold Record.viewBytes fieldList
      simp only [length_flatMap_orders, ← List.append_assoc]
      exact append_congr (append_congr (append_congr (append_congr (append_congr (append_congr (append_congr (append_congr (append_congr
        (append_congr (append_congr (append_congr (append_congr (append_congr (append_congr (append_congr (append_congr (append_congr
        (append_congr (append_congr (append_congr (append_congr (append_congr rfl (field4_eq _)) rfl) (stateOf _)) (fieldFlag_eq _))
        (fieldOpt_eq 1 _ _ _ rfl heldOf)) (fieldOpt_eq 1 _ _ _ rfl fun _ => rfl)) (fieldOpt_eq 1 _ _ _ rfl fieldFlag_eq)) rfl) rfl) rfl)
        (fieldOpt_eq 2 _ _ _ rfl fun _ => rfl)) (fieldOpt_eq 1 _ _ _ rfl findingsOf)) (fieldOpt_eq 1 _ _ _ rfl fun _ => rfl)) rfl) rfl)
        (fieldOpt_eq 2 _ _ _ rfl verdictOf)) (dateOf _)) (fieldOpt_eq 16 _ _ _ rfl resultOf)) rfl) (ordersOf _)) (fieldFlag_eq _))
        (fieldOpt_eq 2 _ _ _ rfl fun _ => rfl)) (specOf _)
    · unfold Controller.listBytes
      exact append_congr (append_congr (append_congr (append_congr (append_congr (append_congr (append_congr (append_congr (lineOf _) (lineOf _))
        (fieldFlag_eq _)) (fieldFlag_eq _)) (dateOf _)) rfl) rfl) (countOf c p)) (listedOf _)

end Sys2Proof.Machine
end

section
/-! SUPPORT. The record forms of the five tables read back (O50, R182), and the jacket views (O51, R186, R187). -/
namespace Sys2Proof.Machine

/-! ### Fields read back -/

theorem toNat_field1 {x : Nat} (h : x < 256) : (BitVec.ofNat 8 x).toNat = x := by
  rw [BitVec.toNat_ofNat]
  exact Nat.mod_eq_of_lt h

theorem read2_field2 {x : Nat} (h : x < 65536) : read2 (BitVec.ofNat 8 (x / 256)) (BitVec.ofNat 8 x) = x := by
  simp only [read2, BitVec.toNat_ofNat]
  omega

theorem read4_field4 {x : Nat} (h : x < 4294967296) :
    read4 (BitVec.ofNat 8 (x / 16777216)) (BitVec.ofNat 8 (x / 65536)) (BitVec.ofNat 8 (x / 256)) (BitVec.ofNat 8 x) = x := by
  simp only [read4, BitVec.toNat_ofNat]
  omega

theorem readFlag_field (b : Bool) : readFlag (BitVec.ofNat 8 b.toNat) = some b := by cases b <;> rfl

theorem readWindow_bytes (w : Window) (base : w.base < 4294967296) (k : w.k ≤ 255) (owner : w.owner ≤ 255) :
    readWindow w.bytes = some w := by
  show (match readFlag (BitVec.ofNat 8 w.valid.toNat), readFlag (BitVec.ofNat 8 w.returnCondemned.toNat) with
    | some v, some r => some (Window.mk v (read4 _ _ _ _) (BitVec.ofNat 8 w.k).toNat (BitVec.ofNat 8 w.owner).toNat r)
    | _, _ => none) = some w
  rw [readFlag_field, readFlag_field, read4_field4 base, toNat_field1 (by omega), toNat_field1 (by omega)]

/-- The record a step block is carried as. -/
def Block.record (b : Block) : BlockRecord :=
  { kind := b.kind.code, chain := b.chain, target := b.target, rate := b.rate, duration := b.duration, samples := b.samples,
    maxRecords := b.maxRecords, band := b.band, timeExp := b.timeExp, reading := b.reading, leak := b.leak }

theorem kindOfCode_code (k : BlockKind) : kindOfCode k.code = some k := by cases k <;> rfl

theorem block_record (b : Block) : b.record.block? = some b := by
  simp [BlockRecord.block?, Block.record, kindOfCode_code]

theorem readLeak_field {leak : Option Nat} (small : ∀ l, leak = some l → l ≤ 65535) :
    ∃ p v1 v2, fieldOpt [0, 0] field2 leak = [p, v1, v2] ∧ readLeak p v1 v2 = some leak := by
  cases leak with
  | none => exact ⟨0, 0, 0, rfl, rfl⟩
  | some l =>
    refine ⟨1, _, _, rfl, ?_⟩
    show some (some (read2 (BitVec.ofNat 8 (l / 256)) (BitVec.ofNat 8 l))) = some (some l)
    rw [read2_field2 (by have := small l rfl; omega)]

theorem readBlockRecord_bytes (b : Block) (ok : b.fieldsOk = true) : readBlockRecord b.bytes = some b.record := by
  obtain ⟨⟨kind, timeExp, ramp, dwells, settles, leaks⟩, noRamp, noDwell, noSettle, noRead⟩ :=
    (BlockRecord.fieldsOk_iff b.record).mp ⟨b, block_record b, ok⟩
  have target : b.target < 65536 := by
    by_cases k : b.record.kind = 1
    · have := (ramp k).1; simp only [Block.record] at this; omega
    · have := (noRamp k).1; simp only [Block.record] at this; omega
  have rate : b.rate < 65536 := by
    by_cases k : b.record.kind = 1
    · have := (ramp k).2.2; simp only [Block.record] at this; omega
    · have := (noRamp k).2; simp only [Block.record] at this; omega
  have duration : b.duration < 65536 := by
    by_cases k : b.record.kind = 1
    · have := noDwell k; simp only [Block.record] at this; omega
    · have := dwells k; simp only [Block.record] at this; omega
  obtain ⟨samples, maxRecords, band⟩ : b.samples < 256 ∧ b.maxRecords < 256 ∧ b.band < 256 := by
    by_cases k : b.record.kind = 0 ∨ b.record.kind = 2 ∨ b.record.kind = 3
    · have := settles k; simp only [Block.record] at this; omega
    · have := noSettle k; simp only [Block.record] at this; omega
  have small (l : Nat) (e : b.leak = some l) : l ≤ 65535 := by
    by_cases k : b.record.kind = 2
    · exact leaks k l e
    · have none_ : b.leak = none := (noRead k).2
      rw [none_] at e
      cases e
  obtain ⟨p, v1, v2, carried, read⟩ := readLeak_field small
  have code : b.kind.code < 256 := by have : b.record.kind = b.kind.code := rfl; omega
  have time : b.timeExp < 256 := by have : b.record.timeExp = b.timeExp := rfl; omega
  unfold Block.bytes
  rw [carried]
  show (match readFlag (BitVec.ofNat 8 b.chain.toNat), readFlag (BitVec.ofNat 8 b.reading.toNat), readLeak p v1 v2 with
    | some c, some r, some l => some (BlockRecord.mk (BitVec.ofNat 8 b.kind.code).toNat c (read2 _ _) (read2 _ _) (read2 _ _)
        (BitVec.ofNat 8 b.samples).toNat (BitVec.ofNat 8 b.maxRecords).toNat (BitVec.ofNat 8 b.band).toNat
        (BitVec.ofNat 8 b.timeExp).toNat r l)
    | _, _, _ => none) = _
  rw [readFlag_field, readFlag_field, read, toNat_field1 code, read2_field2 target, read2_field2 rate, read2_field2 duration,
    toNat_field1 samples, toNat_field1 maxRecords, toNat_field1 band, toNat_field1 time]
  rfl

/-- The record a valid type entry is carried as. -/
def TypeEntry.record (e : TypeEntry) : TypeRecord :=
  { valid := e.valid, size := e.size.code, ptest := e.ptest, window := e.window, overpressure := e.overpressure, ratioLimit := e.ratioLimit,
    ree := e.ree.getD 0, massLoss := e.massLoss, massGain := e.massGain, interval := e.interval, programStart := e.programStart,
    suffix := e.suffix.getD 0, expected := (e.reference.map RefPart.expected).getD 0,
    tolerance := (e.reference.map RefPart.tolerance).getD 0 }

theorem sizeOfCode_code (s : SizeClass) : sizeOfCode s.code = some s := by cases s <;> rfl

/-- An optional value that is not 0 is carried as itself, and an absent one as 0. -/
theorem optional_carried {α : Type} [DecidableEq α] {x : Option α} {zero : α} (h : ∀ a, x = some a → a ≠ zero) :
    (if x.getD zero = zero then none else some (x.getD zero)) = x := by
  cases x with
  | none => exact if_pos rfl
  | some a => exact if_neg (h a rfl)

theorem typeEntry_record (e : TypeEntry) (valid : e.valid = true) (ok : e.fieldsInRange = true) : e.record.entry? = some e := by
  simp only [TypeEntry.fieldsInRange, inRange, Bool.and_eq_true, decide_eq_true_eq, Option.all_eq_true] at ok
  obtain ⟨⟨⟨-, ree⟩, suffix⟩, reference⟩ : ((True ∧ ∀ x, e.ree = some x → 1 ≤ x ∧ x ≤ 65535) ∧ ∀ x, e.suffix = some x → isMarkCharacter x = true) ∧
      ∀ x, e.reference = some x → (1 ≤ x.expected ∧ x.expected ≤ 65535) ∧ 1 ≤ x.tolerance ∧ x.tolerance ≤ 65535 := by tauto
  have carriedRee : (if e.record.ree = 0 then none else some e.record.ree) = e.ree :=
    optional_carried fun a he => by have := ree a he; omega
  have carriedSuffix : (if e.record.suffix = 0 then none else some e.record.suffix) = e.suffix :=
    optional_carried fun a he zero => by
      have := suffix a he
      rw [zero] at this
      exact absurd this (by decide)
  have carriedReference : e.record.refPart = e.reference := by
    unfold TypeRecord.refPart TypeEntry.record
    cases h : e.reference with
    | none => exact if_pos ⟨rfl, rfl⟩
    | some p => exact if_neg fun zero => by have := (reference p h).1.1; have := zero.1; simp at this; omega
  have size : sizeOfCode e.record.size = some e.size := sizeOfCode_code e.size
  rw [TypeRecord.entry?, carriedReference, carriedRee, carriedSuffix, size, Option.map_some, ← valid]
  rfl

theorem readTypeRecord_bytes (e : TypeEntry) (ok : e.fieldsInRange = true) : readTypeRecord e.bytes = some e.record := by
  simp only [TypeEntry.fieldsInRange, inRange, Bool.and_eq_true, decide_eq_true_eq, Option.all_eq_true] at ok
  obtain ⟨⟨⟨⟨⟨⟨⟨⟨⟨⟨ptest, window⟩, overpressure⟩, ratio⟩, ree⟩, loss⟩, gain⟩, interval⟩, start⟩, suffix⟩, reference⟩ := ok
  have reeSmall : e.ree.getD 0 < 65536 := by
    cases h : e.ree with
    | none => exact Nat.zero_lt_succ _
    | some x => have := ree x h; exact Nat.lt_succ_of_le this.2
  obtain ⟨expected, tolerance⟩ : (e.reference.map RefPart.expected).getD 0 < 65536 ∧ (e.reference.map RefPart.tolerance).getD 0 < 65536 := by
    cases h : e.reference with
    | none => exact ⟨Nat.zero_lt_succ _, Nat.zero_lt_succ _⟩
    | some x => have := reference x h; exact ⟨Nat.lt_succ_of_le this.1.2, Nat.lt_succ_of_le this.2.2⟩
  have code : e.size.code < 256 := by cases e.size <;> decide
  show (readFlag (BitVec.ofNat 8 e.valid.toNat)).map (fun v => TypeRecord.mk v (BitVec.ofNat 8 e.size.code).toNat (read2 _ _)
    (BitVec.ofNat 8 e.window).toNat (read2 _ _) (read2 _ _) (read2 _ _) (read2 _ _) (read2 _ _) (BitVec.ofNat 8 e.interval).toNat
    (BitVec.ofNat 8 e.programStart).toNat _ (read2 _ _) (read2 _ _)) = _
  rw [readFlag_field, toNat_field1 code, read2_field2 (by omega), toNat_field1 (by omega), read2_field2 (by omega), read2_field2 (by omega),
    read2_field2 reeSmall, read2_field2 (by omega), read2_field2 (by omega), toNat_field1 (by omega), toNat_field1 (by omega),
    read2_field2 expected, read2_field2 tolerance]
  rfl

theorem role_read_back (r : Role) : (readStationRecord r.bytes).bind StationRecord.role? = some r := by
  cases r with
  | jacket n size =>
    have number : (BitVec.ofNat 8 n.val).toNat = n.val := toNat_field1 (by omega)
    have code : (BitVec.ofNat 8 size.code).toNat = size.code := toNat_field1 (by cases size <;> decide)
    have jacket : jacketOfNumber n.val = some n := dif_pos n.isLt
    show (StationRecord.role? { role := 6, number := (BitVec.ofNat 8 n.val).toNat, size := (BitVec.ofNat 8 size.code).toNat }) = _
    rw [number, code]
    simp only [StationRecord.role?, jacket, sizeOfCode_code]
  | _ => rfl

/-- Settles O50: each record form reads back as the record it was made from, and that record writes the entry. -/
theorem tableRecordsReadBack : Obligations.TableRecordsReadBack :=
  ⟨fun e valid ok => by rw [readTypeRecord_bytes e ok, Option.bind_some, typeEntry_record e valid ok], readWindow_bytes,
    fun a => by cases a <;> rfl, fun b ok => by rw [readBlockRecord_bytes b ok, Option.bind_some, block_record], role_read_back⟩

/-! ### Jacket views (R186, R187) -/

/-- A request whose action writes at most the frozen views answers, and leaves these views. -/
theorem exec_viewed {s : State} {h : Header} {i : Instr} {payload : List Byte} {a : Answer} {f : Option FrozenViews}
    (run : exec i s = .next (s.withPart (s.part.receiveFrame (manageFrame h payload)))) (takes : s.part.Takes h payload.length)
    (answer : (s.part.taken (manageFrame h payload).markTaken.wire).judgeRequest payload = a)
    (viewed : a.part = (s.part.taken (manageFrame h payload).markTaken.wire).setFrozen f) :
    ∃ t : Controller, exec i s = .next (s.withPart t) ∧ s.part.OnlyAnswers t (manageFrame h payload).markTaken.wire ∧
      t.responder.frozen = f ∧ t.Replied (replyTo h (payloadKind payload) a.reason a.data) := by
  rw [receiveFrame_request takes] at run
  refine ⟨_, run, answered_onlyAnswers answer (f := f) (.inr viewed) _, ?_, (answered_onlyPlaces answer _).replied _ (.inl rfl)⟩
  rw [(request_kept _ _ _).frozen, answer, viewed]
  rfl

theorem viewOf_congr {c d : Controller} (jackets : d.jackets = c.jackets) (verification : d.verification = c.verification)
    (tables : d.tables = c.tables) (n : JacketNo) : d.viewOf n = c.viewOf n := by
  unfold Controller.viewOf Controller.recordsRemaining Controller.currentBlock Controller.jacket Controller.verif
  rw [jackets, verification, tables]

theorem jacketOfNumber_val (n : JacketNo) : jacketOfNumber (BitVec.ofNat 8 n.val).toNat = some n := by
  rw [toNat_field1 (by omega)]
  exact dif_pos n.isLt

theorem captureViews_get (c : Controller) (n : JacketNo) : c.captureViews.get n = c.viewOf n := by
  simp [Controller.captureViews, vector_get]

/-- The part as it was taken, with its own frozen views. -/
theorem setFrozen_self (c : Controller) : c.setFrozen c.responder.frozen = c := rfl

theorem fieldOpt_bytes4 (x : Option Serial) :
    fieldOpt (List.replicate 4 0) field4 x = ((x.map fun x => ([BitVec.ofNat 8 (x / 65536 / 256)] ++ [BitVec.ofNat 8 (x / 65536)]) ++
      ([BitVec.ofNat 8 (x / 256)] ++ [BitVec.ofNat 8 x])).map ([1] ++ ·)).getD (List.replicate 5 0) :=
  fieldOpt_eq 4 _ _ x rfl field4_eq

/-- Settles O51: a view answers alone, FROZEN-FIRST and FROZEN-NEXT but for the frozen views; its data are compared field by field. -/
theorem jacketViewsAnswer : Obligations.JacketViewsAnswer := by
  refine ⟨fun _ => rfl, fun s h takes => ⟨fun n => ?_, fun n => ?_, fun number above => ?_, fun f found => ?_, fun none_ => ?_⟩, fun c n => ?_⟩
  · let taken := s.part.taken (manageFrame h [4, 0, BitVec.ofNat 8 n.val]).markTaken.wire
    have answer : taken.judgeRequest [4, 0, BitVec.ofNat 8 n.val] = taken.answer (s.part.viewOf n).bytes := by
      show taken.liveView (BitVec.ofNat 8 n.val) = _
      rw [Controller.liveView, jacketOfNumber_val]
      rfl
    exact exec_viewed rfl takes answer (setFrozen_self taken).symm
  · let taken := s.part.taken (manageFrame h [4, 1, BitVec.ofNat 8 n.val]).markTaken.wire
    have answer : taken.judgeRequest [4, 1, BitVec.ofNat 8 n.val] =
        (taken.setFrozen (some { views := taken.captureViews, pointer := n })).answer (taken.captureViews.get n).bytes := by
      show taken.frozenFirst (BitVec.ofNat 8 n.val) = _
      rw [Controller.frozenFirst, jacketOfNumber_val]
    obtain ⟨t, run, alone, frozen, replied⟩ := exec_viewed (i := .frozenFirst h [BitVec.ofNat 8 n.val]) rfl takes answer rfl
    rw [show (Controller.answer _ (taken.captureViews.get n).bytes).data = (taken.captureViews.get n).bytes from rfl, captureViews_get] at replied
    exact ⟨t, _, run, alone, frozen, rfl, captureViews_get taken, replied⟩
  · let taken := s.part.taken (manageFrame h [4, 1, number]).markTaken.wire
    have answer : taken.judgeRequest [4, 1, number] = taken.refuse .badIndex := by
      show taken.frozenFirst number = _
      rw [Controller.frozenFirst, jacketOfNumber_above above]
    exact exec_viewed rfl takes answer (setFrozen_self taken).symm
  · let taken := s.part.taken (manageFrame h [4, 2]).markTaken.wire
    have shorter : s.part.Takes h 2 := ⟨⟨takes.1.1, by decide, takes.1.2.2⟩, takes.2⟩
    have answer : taken.judgeRequest [4, 2] =
        (taken.setFrozen (some { f with pointer := f.pointer + 1 })).answer (f.views.get (f.pointer + 1)).bytes := by
      show taken.frozenNext = _
      rw [Controller.frozenNext, show taken.responder.frozen = some f from found]
    obtain ⟨t, run, alone, frozen, replied⟩ := exec_viewed (i := .frozenNext h []) rfl shorter answer rfl
    have next : ∀ k : JacketNo, (k + 1).val = if k.val = 7 then 0 else k.val + 1 := by decide
    exact ⟨t, f.pointer + 1, run, next _, frozen, alone, replied⟩
  · let taken := s.part.taken (manageFrame h [4, 2]).markTaken.wire
    have shorter : s.part.Takes h 2 := ⟨⟨takes.1.1, by decide, takes.1.2.2⟩, takes.2⟩
    have answer : taken.judgeRequest [4, 2] = taken.refuse .noSnapshot := by
      show taken.frozenNext = _
      rw [Controller.frozenNext, show taken.responder.frozen = none from none_]
    obtain ⟨t, run, -, frozen, replied⟩ := exec_viewed (i := .frozenNext h []) rfl shorter answer (setFrozen_self taken).symm
    exact ⟨t, run, frozen.trans none_, replied⟩
  · intro j v one two four present pair most remaining state
    have remainingOf : c.recordsRemaining n = remaining := by
      simp only [remaining]
      unfold Controller.recordsRemaining
      show (match j.state with | .running kind => _ | _ => _) = _
      cases j.state with
      | running kind => cases kind <;> rfl
      | _ => rfl
    have stateOf : field1 j.state.code ++ field1 j.state.qualifier = state := by
      simp only [state]
      cases j.state with
      | running kind => cases kind <;> rfl
      | recovering reason => cases reason <;> rfl
      | fault cause => cases cause <;> rfl
      | _ => rfl
    have earlyOf (x : EarlyCause) : field1 x.code = one ([EarlyCause.overpressure, .leak, .unstable, .timeout].idxOf x) := by cases x <;> rfl
    have shown : (c.viewOf n).bytes = field1 n.val ++ (field1 j.state.code ++ field1 j.state.qualifier) ++ field1 j.currentBlock ++
        field1 (c.recordsRemaining n) ++ field1 j.acc.samples ++
        fieldOpt (List.replicate 6 0) (fun m => field2 (Means.level m) ++ field2 m.pressure ++ field2 m.temperature) j.lastMeans ++
        fieldOpt (List.replicate 4 0) field4 j.awaited ++ fieldOpt (List.replicate 4 0) field4 j.loaded ++ field2 j.sampleAge ++
        fieldOpt (List.replicate 4 0) ReadingPair.bytes j.zero ++ fieldOpt (List.replicate 4 0) ReadingPair.bytes j.hold ++
        fieldOpt (List.replicate 4 0) ReadingPair.bytes j.vent ++ fieldOpt [0] (fun e => field1 (EarlyCause.code e)) j.earlyEnd ++
        fieldFlag v.verified ++ fieldDateOpt v.date ++ field1 v.count := rfl
    rw [shown, stateOf, remainingOf]
    exact append_congr (append_congr (append_congr (append_congr (append_congr (append_congr (append_congr (append_congr (append_congr
      (append_congr (append_congr rfl (fieldOpt_eq 6 _ _ _ rfl fun _ => rfl)) (fieldOpt_bytes4 _)) (fieldOpt_bytes4 _)) rfl)
      (fieldOpt_eq 4 _ _ _ rfl fun _ => rfl)) (fieldOpt_eq 4 _ _ _ rfl fun _ => rfl)) (fieldOpt_eq 4 _ _ _ rfl fun _ => rfl))
      (fieldOpt_eq 1 _ _ _ rfl earlyOf)) (fieldFlag_eq _)) (fieldOpt_eq 4 _ _ _ rfl fun _ => rfl)) rfl

end Sys2Proof.Machine
end

section
/-! SUPPORT. TABLE WRITE: the records it carries, what an accepted one writes (O47, R36), and the checks of the five tables (O48, R21, R24, R26, R28,
R33). -/
namespace Sys2Proof.Machine

/-! ### The records a TABLE WRITE carries (R35) -/

/-- A readable record has its table's size. -/
theorem length_of_readTableRecord {t : TableName} {bytes : List Byte} {r : TableRecord} (h : readTableRecord t bytes = some r) :
    bytes.length = t.recordSize := by
  unfold readTableRecord at h
  cases t <;> obtain ⟨x, read, -⟩ := Option.map_eq_some_iff.mp h
  case types =>
    unfold readTypeRecord at read
    split at read
    · rfl
    · cases read
  case windows =>
    unfold readWindow at read
    split at read
    · rfl
    · cases read
  case defects =>
    unfold readDefect at read
    split at read
    · rfl
    · cases read
  case blocks =>
    unfold readBlockRecord at read
    split at read
    · rfl
    · cases read
  case stations =>
    unfold readStationRecord at read
    split at read
    · rfl
    · cases read

theorem readTableRecords_cons {t : TableName} {n : Nat} {first rest : List Byte} {r : TableRecord} {rs : List TableRecord}
    (head : readTableRecord t first = some r) (tail : readTableRecords t n rest = some rs) :
    readTableRecords t (n + 1) (first ++ rest) = some (r :: rs) := by
  have size := length_of_readTableRecord head
  rw [readTableRecords, ← size, List.take_left, List.drop_left, head, tail]

theorem readTableRecords_single {t : TableName} {bytes : List Byte} {r : TableRecord} (h : readTableRecord t bytes = some r) :
    readTableRecords t 1 bytes = some [r] := by
  have := readTableRecords_cons (rest := []) h (rfl : readTableRecords t 0 [] = some [])
  rwa [List.append_nil] at this

/-! ### One record written or refused (R36, R37) -/

section
variable {s : State} {h : Header} {code i1 i2 : Byte} {rec : List Byte} {name : TableName} {r : TableRecord}

theorem judgeRequest_write_one (c : Controller) (known : tableOfCode code.toNat = some name) (read : readTableRecord name rec = some r) :
    c.judgeRequest (1 :: code :: i1 :: i2 :: 1 :: rec) = Controller.writeRecords (read2 i1 i2) 1 c (read2 i1 i2) [r] := by
  have one : (1 : Byte).toNat = 1 := rfl
  rw [judgeRequest_write c i1 i2 rec known (by rw [one]; decide), one, readTableRecords_single read, Option.elim_some]

/-- A TABLE WRITE of one record that is written (R36). -/
theorem exec_tableWrite_written {tables : Tables} (takes : s.part.Takes h (rec.length + 5)) (known : tableOfCode code.toNat = some name)
    (read : readTableRecord name rec = some r)
    (written : ∀ c : Controller, c.tables = s.part.tables → c.jackets = s.part.jackets → c.line = s.part.line →
      c.ring.nodeAddress = s.part.ring.nodeAddress → ∃ d, c.writeRecord (read2 i1 i2) r = .ok d ∧ OnlyPlaces (c.setTables tables) d) :
    ∃ t : Controller, exec (.tableWrite h (code :: i1 :: i2 :: 1 :: rec)) s = .next (s.withPart t) ∧ t.tables = tables ∧
      t.records = s.part.records ∧ t.jackets = s.part.jackets ∧ t.line = s.part.line ∧ t.Replied (replyTo h 1 none [i1, i2, 1]) := by
  let payload : List Byte := 1 :: code :: i1 :: i2 :: 1 :: rec
  let taken := s.part.taken (manageFrame h payload).markTaken.wire
  obtain ⟨d, ok, places⟩ := written taken rfl rfl rfl rfl
  have answer : taken.judgeRequest payload = { part := d, reason := none, data := [i1, i2, 1] } := by
    rw [judgeRequest_write_one taken known read, Controller.writeRecords, ok]
    dsimp only
    rw [Controller.writeRecords, show 1 = (1 : Byte).toNat from rfl, writeRefused_data]
  have placed := answered_onlyPlaces answer h.source.toNat
  have run : exec (.tableWrite h (code :: i1 :: i2 :: 1 :: rec)) s = .next (s.withPart (taken.request h.source.toNat payload)) := by
    rw [← receiveFrame_request takes]
    rfl
  exact ⟨_, run, placed.tables.trans places.tables, placed.records.trans places.records, placed.jackets.trans places.jackets,
    placed.line.trans places.line, placed.replied _ (.inl rfl)⟩

/-- A TABLE WRITE of one record that is refused (R37). -/
theorem exec_tableWrite_refused {reason : Reason} (takes : s.part.Takes h (rec.length + 5)) (known : tableOfCode code.toNat = some name)
    (read : readTableRecord name rec = some r)
    (refused : ∀ c : Controller, c.tables = s.part.tables → c.jackets = s.part.jackets → c.line = s.part.line →
      c.ring.nodeAddress = s.part.ring.nodeAddress → c.writeRecord (read2 i1 i2) r = .error reason) :
    ∃ t : Controller, exec (.tableWrite h (code :: i1 :: i2 :: 1 :: rec)) s = .next (s.withPart t) ∧
      s.part.OnlyAnswers t (manageFrame h (1 :: code :: i1 :: i2 :: 1 :: rec)).markTaken.wire ∧
      t.Replied (replyTo h 1 (some reason) [i1, i2, 1]) := by
  refine answersAlone_of rfl (fun c tables _ jackets _ line address => ?_) takes
  rw [judgeRequest_write_one c known read, writeRecords_refused _ _ _ (refused c tables jackets line address)]
  rw [← writeRefused_data i1 i2 1]
  rfl

end

theorem setTables_master_onlyPlaces (c : Controller) (t : Tables) (role : Role) :
    OnlyPlaces (c.setTables t) (if role = .master then (c.setTables t).offerNotices else c.setTables t) := by
  split
  · exact offerNotices_onlyPlaces _
  · exact .refl

theorem judgeBlock_congr {c d : Controller} (tables : d.tables = c.tables) (jackets : d.jackets = c.jackets) (i : Nat) (r : BlockRecord) :
    d.judgeBlock i r = c.judgeBlock i r := by
  unfold Controller.judgeBlock Controller.blockProtected Controller.jacket
  rw [tables, jackets]

theorem judgeStation_congr {c d : Controller} (tables : d.tables = c.tables) (jackets : d.jackets = c.jackets) (line : d.line = c.line)
    (address : d.ring.nodeAddress = c.ring.nodeAddress) (i : Nat) (r : StationRecord) : d.judgeStation i r = c.judgeStation i r := by
  have busy : d.roleBusy = c.roleBusy := by
    funext role
    unfold Controller.roleBusy Controller.jacket
    rw [jackets]
  unfold Controller.judgeStation Controller.roleAt
  rw [tables, line, address, busy]

/-- Settles O47: the judged entry is what the record writes, and a MASTER that comes with it only places notices. -/
theorem tableWriteWritesEntry : Obligations.TableWriteWritesEntry := by
  intro s h i1 i2 rec takes
  refine ⟨fun hi r e read judged => exec_tableWrite_written (name := .types) (r := .type r) takes rfl (by rw [readTableRecord, read]; rfl) ?_,
    fun hi w e read judged => exec_tableWrite_written (name := .windows) (r := .window w) takes rfl (by rw [readTableRecord, read]; rfl) ?_,
    fun hi a e read judged => exec_tableWrite_written (name := .defects) (r := .defect a) takes rfl (by rw [readTableRecord, read]; rfl) ?_,
    fun hi r e read judged => exec_tableWrite_written (name := .blocks) (r := .block r) takes rfl (by rw [readTableRecord, read]; rfl) ?_,
    fun hi r e read judged => exec_tableWrite_written (name := .stations) (r := .station r) takes rfl (by rw [readTableRecord, read]; rfl) ?_⟩
  all_goals intro c tables jackets line address
  · exact ⟨_, by rw [Controller.writeRecord, dif_pos hi, tables, judged]; rfl, .refl⟩
  · exact ⟨_, by rw [Controller.writeRecord, dif_pos hi, tables, judged]; rfl, .refl⟩
  · exact ⟨_, by rw [Controller.writeRecord, dif_pos hi, tables, judged]; rfl, .refl⟩
  · exact ⟨_, by rw [Controller.writeRecord, dif_pos hi, judgeBlock_congr tables jackets, tables, judged]; rfl, .refl⟩
  · exact ⟨_, by rw [Controller.writeRecord, dif_pos hi, judgeStation_congr tables jackets line address, tables, judged]; rfl,
      setTables_master_onlyPlaces _ _ _⟩

end Sys2Proof.Machine
end

section
/-! SUPPORT. The checks on the records of the five tables and what a refused TABLE WRITE leaves (O48, R21, R24, R26, R28, R31, R33, R37). -/
namespace Sys2Proof.Machine

/-! ### Type records (R20, R21) -/

/-- The entry a type record with a size class in range would write. -/
def TypeRecord.entryOf (r : TypeRecord) : TypeEntry :=
  { valid := true, size := if r.size = 0 then .small else .large, ptest := r.ptest, window := r.window,
    overpressure := r.overpressure, ratioLimit := r.ratioLimit, ree := if r.ree = 0 then none else some r.ree,
    massLoss := r.massLoss, massGain := r.massGain, interval := r.interval, programStart := r.programStart,
    suffix := if r.suffix = 0 then none else some r.suffix,
    reference := if r.expected = 0 ∧ r.tolerance = 0 then none else some { expected := r.expected, tolerance := r.tolerance } }

theorem entry?_eq (r : TypeRecord) : r.entry? = if r.size ≤ 1 then some r.entryOf else none := by
  unfold TypeRecord.entry? TypeRecord.refPart
  match e : r.size with
  | 0 => simp [sizeOfCode, TypeRecord.entryOf, e]
  | 1 => simp [sizeOfCode, TypeRecord.entryOf, e]
  | k + 2 => simp [sizeOfCode]

theorem all_optional {α : Type} {p : α → Bool} {q : Prop} [Decidable q] {a : α} :
    (if q then none else some a).all p = true ↔ q ∨ p a = true := by
  by_cases h : q
  · simp [h]
  · simp [h]

theorem isMarkCharacter_iff (b : Byte) : isMarkCharacter b = true ↔
    (0x41 ≤ b.toNat ∧ b.toNat ≤ 0x5A) ∨ (0x30 ≤ b.toNat ∧ b.toNat ≤ 0x39) ∨ b = 0x2F ∨ b = 0x2D ∨ b = 0x20 := by
  simp only [isMarkCharacter, isAlnum, Bool.or_eq_true, Bool.and_eq_true, decide_eq_true_eq, beq_iff_eq]
  tauto

theorem inRange_iff {low high x : Nat} : inRange low high x = true ↔ low ≤ x ∧ x ≤ high := by
  simp only [inRange, Bool.and_eq_true, decide_eq_true_eq]

theorem fieldsInRange_entryOf (r : TypeRecord) : r.entryOf.fieldsInRange = true ↔
    1000 ≤ r.ptest ∧ r.ptest ≤ 60000 ∧ 1 ≤ r.window ∧ r.window ≤ 50 ∧
      1000 ≤ r.overpressure ∧ r.overpressure ≤ 1200 ∧ 1 ≤ r.ratioLimit ∧ r.ratioLimit ≤ 1000 ∧ r.ree ≤ 65535 ∧
      r.massLoss ≤ 500 ∧ r.massGain ≤ 500 ∧ 1 ≤ r.interval ∧ r.interval ≤ 15 ∧ r.programStart ≤ 95 ∧
      (r.suffix = 0 ∨ (0x41 ≤ r.suffix.toNat ∧ r.suffix.toNat ≤ 0x5A) ∨ (0x30 ≤ r.suffix.toNat ∧ r.suffix.toNat ≤ 0x39) ∨
        r.suffix = 0x2F ∨ r.suffix = 0x2D ∨ r.suffix = 0x20) ∧
      ((r.expected = 0 ∧ r.tolerance = 0) ∨
        (1 ≤ r.expected ∧ r.expected ≤ 65535 ∧ 1 ≤ r.tolerance ∧ r.tolerance ≤ 65535)) := by
  have ree : (r.ree = 0 ∨ 1 ≤ r.ree ∧ r.ree ≤ 65535) ↔ r.ree ≤ 65535 := by omega
  simp only [TypeEntry.fieldsInRange, TypeRecord.entryOf, Bool.and_eq_true, inRange_iff, all_optional, isMarkCharacter_iff,
    and_assoc, Nat.zero_le, true_and, ree]

theorem judgeType_valid (t : Tables) {r : TypeRecord} (valid : r.valid = true) :
    judgeType t r =
      if r.size ≤ 1 ∧ r.entryOf.fieldsInRange = true then
        if t.chainOk r.programStart = false then .error .badProgram else .ok r.entryOf
      else .error .badField := by
  unfold judgeType
  rw [if_neg (by rw [valid]; decide), entry?_eq]
  by_cases size : r.size ≤ 1
  · by_cases range : r.entryOf.fieldsInRange = true
    · simp only [size, range, if_true, Bool.true_eq_false, if_false, and_self]
      rfl
    · simp [size, Bool.eq_false_iff.mpr range]
  · simp [size]

/-! ### Step blocks (R28, R31) -/

/-- The states in which a jacket's chain is protected (R31). -/
theorem protects_iff (s : JacketState) :
    s.protects = true ↔ s = .awaiting ∨ (∃ k, s = .running k) ∨ (∃ x, s = .recovering x) ∨ s = .heldVented := by
  cases s <;> simp [JacketState.protects]

theorem judgeBlock_of_ok {c : Controller} {i : Nat} {r : BlockRecord} {b : Block} (whole : r.block? = some b) (ok : b.fieldsOk = true) :
    c.judgeBlock i r = if c.blockProtected i then .error .inUse else .ok b := by
  simp only [Controller.judgeBlock, whole, ok, Bool.true_eq_false, if_false]

theorem judgeBlock_of_bad {c : Controller} {i : Nat} {r : BlockRecord} (bad : ¬ ∃ b, r.block? = some b ∧ b.fieldsOk = true) :
    c.judgeBlock i r = .error .badField := by
  unfold Controller.judgeBlock
  split
  · rfl
  · next b whole => exact if_pos (Bool.eq_false_iff.mpr fun ok => bad ⟨b, whole, ok⟩)

theorem kindOfCode_eq (k : Nat) : kindOfCode k = [BlockKind.zero, .ramp, .hold, .vent, .dwell][k]? := by
  match k with
  | 0 | 1 | 2 | 3 | 4 => rfl
  | k + 5 => rfl

/-! ### Owner windows and the station map (R24, R33) -/

/-- A test of the places of a vector other than one index holds of one of them (R24, R33). -/
theorem any_zipIdx_true {α : Type} {k : Nat} {v : Vector α k} {i : Nat} {p : α → Bool} {j : Fin k} (other : j.val ≠ i)
    (holds : p (v.get j) = true) : (v.toList.zipIdx.any fun x => x.2 != i && p x.1) = true := by
  rw [List.any_eq_true]
  refine ⟨(v.get j, j.val), ?_, by simp [other, holds]⟩
  rw [List.mem_zipIdx_iff_getElem?]
  simp [vector_get]

theorem any_zipIdx_none {α : Type} {k : Nat} {v : Vector α k} {i : Nat} {p : α → Bool}
    (apart : ∀ j : Fin k, j.val ≠ i → p (v.get j) = false) : (v.toList.zipIdx.any fun x => x.2 != i && p x.1) = false := by
  rw [List.any_eq_false]
  rintro ⟨x, j⟩ member
  rw [List.mem_zipIdx_iff_getElem?] at member
  simp only [Vector.getElem?_toList] at member
  obtain ⟨small, rfl⟩ := Vector.getElem?_eq_some_iff.mp member
  by_cases other : j = i
  · simp [other]
  · have := apart ⟨j, small⟩ other
    rw [vector_get] at this
    simp [this]

theorem overlapAt_iff (t : Tables) (i : Nat) (w : Window) : t.overlapAt i w = true ↔
    ∃ j : Fin 16, j.val ≠ i ∧ (t.windows.get j).valid = true ∧ (t.windows.get j).base < w.base + 2 ^ w.k ∧
      w.base < (t.windows.get j).base + 2 ^ (t.windows.get j).k := by
  have whole : t.overlapAt i w = t.windows.toList.zipIdx.any fun p => p.2 != i && (p.1.valid && p.1.overlaps w) := by
    simp only [Tables.overlapAt, Bool.and_assoc]
  rw [whole]
  constructor
  · intro found
    by_contra none_
    rw [any_zipIdx_none (p := fun x : Window => x.valid && x.overlaps w)] at found
    · cases found
    · intro j other
      rw [Bool.eq_false_iff]
      intro here
      simp only [Window.overlaps, Bool.and_eq_true, decide_eq_true_eq] at here
      exact none_ ⟨j, other, here⟩
  · rintro ⟨j, other, valid, low, high⟩
    exact any_zipIdx_true (p := fun x : Window => x.valid && x.overlaps w) other (by simp [valid, Window.overlaps, low, high])

theorem judgeWindow_valid (t : Tables) (i : Nat) {w : Window} (owner : w.owner ≤ 255) (valid : w.valid = true) :
    judgeWindow t i w =
      if 8 ≤ w.k ∧ w.k ≤ 24 then
        if w.base % 2 ^ w.k ≠ 0 then .error .misaligned else if t.overlapAt i w = true then .error .overlap else .ok w
      else .error .badField := by
  unfold judgeWindow
  rw [if_neg (by rw [valid]; decide)]
  by_cases range : 8 ≤ w.k ∧ w.k ≤ 24
  · rw [if_neg (by simp only [inRange, Bool.and_eq_false_iff, decide_eq_false_iff_not]; omega), if_pos range]
  · rw [if_pos (by simp only [inRange, Bool.and_eq_false_iff, decide_eq_false_iff_not]; omega), if_neg range]

theorem roleElsewhere_true {t : Tables} {i : Nat} {r : Role} {j : Fin 64} (other : j.val ≠ i) (clash : r.clashes (t.stations.get j) = true) :
    t.roleElsewhere i r = true := any_zipIdx_true (p := fun x => r.clashes x) other clash

theorem roleElsewhere_false {t : Tables} {i : Nat} {r : Role} (apart : ∀ j : Fin 64, j.val ≠ i → r.clashes (t.stations.get j) = false) :
    t.roleElsewhere i r = false := any_zipIdx_none (p := fun x => r.clashes x) apart

/-- The checks on a station map record whose role is one of the nine, in their order (R33). -/
theorem judgeStation_role (c : Controller) (i : Nat) {r : StationRecord} {x : Role} (role : r.role? = some x) :
    c.judgeStation i r =
      if (i = 0 ∨ i = 63 ∨ i = c.ring.nodeAddress.toNat) ∧ x ≠ .none then .error .badIndex
      else if c.line.state ≠ .stopped then .error .lineState
      else if c.roleBusy (c.roleAt i) = true ∨ c.roleBusy x = true then .error .busy
      else if c.tables.roleElsewhere i x then .error .duplicateRole
      else .ok x := by
  rw [Controller.judgeStation, role]

/-! ### Refused writes (R36, R37) -/

/-- A TABLE WRITE of two windows whose second is refused (R37). -/
theorem judgeRequest_write_two (c : Controller) {i1 i2 : Byte} {rec1 rec2 : List Byte} {w1 w2 e1 : Window} {reason : Reason}
    (read1 : readWindow rec1 = some w1) (read2_ : readWindow rec2 = some w2) (hi : read2 i1 i2 < 16) (next : read2 i1 i2 + 1 < 16)
    (judged1 : judgeWindow c.tables (read2 i1 i2) w1 = .ok e1)
    (judged2 : judgeWindow { c.tables with windows := c.tables.windows.set (read2 i1 i2) e1 hi } (read2 i1 i2 + 1) w2 = .error reason) :
    c.judgeRequest (1 :: 2 :: i1 :: i2 :: 2 :: (rec1 ++ rec2)) =
      { part := c.setTables { c.tables with windows := c.tables.windows.set (read2 i1 i2) e1 hi }, reason := some reason,
        data := field2 (read2 i1 i2 + 1) ++ [1] } := by
  have two : (2 : Byte).toNat = 2 := rfl
  have first : readTableRecord .windows rec1 = some (.window w1) := by rw [readTableRecord, read1]; rfl
  have second : readTableRecord .windows rec2 = some (.window w2) := by rw [readTableRecord, read2_]; rfl
  have written : c.writeRecord (read2 i1 i2) (.window w1) =
      .ok (c.setTables { c.tables with windows := c.tables.windows.set (read2 i1 i2) e1 hi }) := by
    rw [Controller.writeRecord, dif_pos hi, judged1]
    rfl
  have refused : (c.setTables { c.tables with windows := c.tables.windows.set (read2 i1 i2) e1 hi }).writeRecord (read2 i1 i2 + 1)
      (.window w2) = .error reason := by
    rw [Controller.writeRecord, dif_pos next, setTables_tables, judged2]
    rfl
  rw [judgeRequest_write c (name := .windows) i1 i2 _ rfl (by rw [two]; decide), two,
    readTableRecords_cons first (readTableRecords_single second), Option.elim_some, Controller.writeRecords, written]
  exact writeRecords_refused _ _ _ refused

/-- Settles O48: each judgment is its checks in their order; a refused record leaves what the records before it have written. -/
theorem tableWriteChecks : Obligations.TableWriteChecks := by
  refine ⟨fun t r => ?_, ⟨rfl, rfl, rfl, rfl, fun action above => ?_⟩, fun c i r => ?_, ⟨fun t i w owner => ?_, fun c i r => ?_⟩,
    fun s h i1 i2 rec reason takes => ?_, fun s h i1 i2 rec1 rec2 w1 w2 e1 reason hi takes long1 long2 read1 read2_ next judged1 judged2 => ?_⟩
  · intro inRange
    have fits : inRange ↔ r.size ≤ 1 ∧ r.entryOf.fieldsInRange = true := by rw [fieldsInRange_entryOf]
    refine ⟨fun invalid => if_pos invalid, fun valid bad => ?_, fun valid range broken => ?_, fun valid range whole => ?_⟩
    · rw [judgeType_valid t valid, if_neg fun k => bad (fits.mpr k)]
    · rw [judgeType_valid t valid, if_pos (fits.mp range), if_pos broken]
    · rw [judgeType_valid t valid, if_pos (fits.mp range), if_neg (by rw [whole]; decide)]
      rfl
  · match action, above with
    | k + 4, _ => rfl
  · intro settles usedInRange unusedClear inChainOf protecting
    have whole : (∃ b, r.block? = some b ∧ b.fieldsOk = true) ↔ usedInRange ∧ unusedClear := r.fieldsOk_iff
    have guarded : c.blockProtected i = true ↔ ∃ n, protecting n ∧ inChainOf n := by
      rw [blockProtected_iff]
      exact exists_congr fun n => and_congr (protects_iff _) (chainAt_contains _ _ _)
    refine ⟨fun bad => judgeBlock_of_bad fun k => bad (whole.mp k), fun used clear busy => ?_, fun used clear free => ?_⟩
    · obtain ⟨b, carried, ok⟩ := whole.mpr ⟨used, clear⟩
      rw [judgeBlock_of_ok carried ok, if_pos (guarded.mpr busy)]
    · obtain ⟨b, carried, ok⟩ := whole.mpr ⟨used, clear⟩
      have unguarded : ¬ c.blockProtected i = true := fun k => by
        obtain ⟨n, protects, inChain⟩ := guarded.mp k
        exact free n protects inChain
      obtain ⟨kind, known, rfl⟩ := Option.map_eq_some_iff.mp carried
      exact ⟨kind, (kindOfCode_eq _).symm.trans known, by rw [judgeBlock_of_ok carried ok, if_neg unguarded]⟩
  · refine ⟨fun invalid => if_pos invalid, fun valid outside => ?_, fun valid low high => ?_⟩
    · rw [judgeWindow_valid t i owner valid, if_neg (by omega)]
    · rw [judgeWindow_valid t i owner valid, if_pos ⟨low, high⟩]
      refine ⟨fun crooked => if_pos crooked, fun aligned shared => ?_, fun aligned apart => ?_⟩
      · rw [if_neg (not_not.mpr aligned), if_pos ((overlapAt_iff t i w).mpr shared)]
      · rw [if_neg (not_not.mpr aligned), if_neg]
        rw [overlapAt_iff]
        rintro ⟨j, other, valid, below, above⟩
        rcases apart j other valid with k | k <;> omega
  · refine ⟨fun unread => by rw [Controller.judgeStation, unread], fun x role => ?_⟩
    rw [judgeStation_role c i role]
    refine ⟨fun some_ place => if_pos ⟨place, some_⟩, fun place => ?_⟩
    rw [if_neg (by tauto)]
    refine ⟨fun moving => if_pos moving, fun stopped busy => ?_, fun stopped free1 free2 => ?_⟩
    · rw [if_neg (not_not.mpr stopped), if_pos busy]
    · rw [if_neg (not_not.mpr stopped), if_neg (by rw [free1, free2]; decide)]
      exact ⟨fun ⟨j, other, clash⟩ => if_pos (roleElsewhere_true other clash),
        fun apart => if_neg (by rw [roleElsewhere_false apart]; decide)⟩
  · refine ⟨fun r hi read judged => exec_tableWrite_refused (name := .types) (r := .type r) takes rfl (by rw [readTableRecord, read]; rfl) ?_,
      fun w hi read judged => exec_tableWrite_refused (name := .windows) (r := .window w) takes rfl (by rw [readTableRecord, read]; rfl) ?_,
      fun a hi read judged => exec_tableWrite_refused (name := .defects) (r := .defect a) takes rfl (by rw [readTableRecord, read]; rfl) ?_,
      fun r hi read judged => exec_tableWrite_refused (name := .blocks) (r := .block r) takes rfl (by rw [readTableRecord, read]; rfl) ?_,
      fun r hi read judged => exec_tableWrite_refused (name := .stations) (r := .station r) takes rfl (by rw [readTableRecord, read]; rfl) ?_⟩
    all_goals intro c tables jackets line address
    · rw [Controller.writeRecord, dif_pos hi, tables, judged]; rfl
    · rw [Controller.writeRecord, dif_pos hi, tables, judged]; rfl
    · rw [Controller.writeRecord, dif_pos hi, judged]; rfl
    · rw [Controller.writeRecord, dif_pos hi, judgeBlock_congr tables jackets, judged]; rfl
    · rw [Controller.writeRecord, dif_pos hi, judgeStation_congr tables jackets line address, judged]; rfl
  · let payload : List Byte := 1 :: 2 :: i1 :: i2 :: 2 :: (rec1 ++ rec2)
    have takes' : s.part.Takes h payload.length := by
      have size : payload.length = rec1.length + rec2.length + 5 := by simp [payload]
      rw [size]
      exact takes
    let taken := s.part.taken (manageFrame h payload).markTaken.wire
    have answer := judgeRequest_write_two taken read1 read2_ hi next judged1 judged2
    have placed := answered_onlyPlaces answer h.source.toNat
    have run : exec (.tableWrite h (2 :: i1 :: i2 :: 2 :: (rec1 ++ rec2))) s = .next (s.withPart (taken.request h.source.toNat payload)) := by
      rw [← receiveFrame_request takes']
      rfl
    exact ⟨_, run, placed.tables, placed.replied _ (.inl rfl)⟩

end Sys2Proof.Machine
end

section
/-! SUPPORT. Accepted commands: SET CONFIG (O39, R176), JACKET ENABLE (O40, R118) and the notice commands (O45, R180); what the placement of frames
leaves of the notices (R179). -/
namespace Sys2Proof.Machine

/-! ### A request acted on and answered -/

/-- The answer of an accepted request: what its action left, with the reply, and then only frames placed. -/
theorem exec_answered {s : State} {h : Header} {i : Instr} {payload : List Byte} {a : Answer}
    (run : exec i s = .next (s.withPart (s.part.receiveFrame (manageFrame h payload)))) (takes : s.part.Takes h payload.length)
    (answer : (s.part.taken (manageFrame h payload).markTaken.wire).judgeRequest payload = a) :
    ∃ t : Controller, exec i s = .next (s.withPart t) ∧
      t = (s.part.taken (manageFrame h payload).markTaken.wire).request h.source.toNat payload ∧
      OnlyPlaces (a.part.setBuffer (.holding (replyTo h (payloadKind payload) a.reason a.data))) t ∧
      t.Replied (replyTo h (payloadKind payload) a.reason a.data) := by
  rw [receiveFrame_request takes] at run
  have placed := answered_onlyPlaces answer h.source.toNat
  exact ⟨_, run, rfl, placed, placed.replied _ (.inl rfl)⟩

/-- An accepted command (R181, R183). -/
theorem commandAnswer_ok {c d : Controller} (code : Nat) {x : Except Reason Controller} (ok : x = .ok d) :
    c.commandAnswer code x = { part := d, reason := none, data := field1 code } := by
  rw [ok]
  rfl

theorem commandAnswer_error {c : Controller} (code : Nat) {x : Except Reason Controller} {reason : Reason} (refused : x = .error reason) :
    c.commandAnswer code x = { part := c, reason := some reason, data := field1 code } := by
  rw [refused]
  rfl

/-! ### SET CONFIG (R176) -/

/-- A numeric item with its range (R176). -/
theorem set_numeric (i : Items) {code low high : Nat} {a b : Byte} {put : Nat → Items}
    (item : i.set code [a, b] = if low ≤ read2 a b ∧ read2 a b ≤ high then some (put (read2 a b)) else none) (c : Controller)
    (items : c.line.items = i) (known : code ≤ 5) :
    (c.line.state = .stopped → c.setConfig code [a, b] = if low ≤ read2 a b ∧ read2 a b ≤ high then
        .ok { c with line := { c.line with items := put (read2 a b) } } else .error .badField) ∧
      (c.line.state ≠ .stopped → c.setConfig code [a, b] = .error .lineState) := by
  unfold Controller.setConfig
  rw [if_neg (Nat.not_lt.mpr known)]
  refine ⟨fun stopped => ?_, fun moving => if_pos moving⟩
  rw [if_neg (not_not.mpr stopped), items, item]
  by_cases inside : low ≤ read2 a b ∧ read2 a b ≤ high
  · rw [if_pos inside, if_pos inside]
  · rw [if_neg inside, if_neg inside]

theorem judgeRequest_setConfig (c : Controller) {x : Byte} (a b : Byte) (numeric : x.toNat ≠ 0) :
    c.judgeRequest [3, 6, x, a, b] = c.commandAnswer 6 (c.setConfig x.toNat [a, b]) := by
  show c.commandAnswer 6 (if 2 = (if x.toNat = 0 then 4 else 2) then c.setConfig x.toNat [a, b] else .error .badField) = _
  rw [if_pos (by rw [if_neg numeric])]

theorem judgeRequest_plantCode (c : Controller) {code : List Byte} (long : code.length = 4) :
    c.judgeRequest (3 :: 6 :: 0 :: code) = c.commandAnswer 6 (c.setConfig 0 code) := by
  show c.commandAnswer 6 (if code.length = 4 then c.setConfig 0 code else .error .badField) = _
  rw [if_pos long]

theorem setConfig_plantCode (c : Controller) (code : List Byte) :
    c.setConfig 0 code = if c.line.state ≠ .stopped then .error .lineState
      else if code.length = 4 ∧ code.all isAlnum = true then .ok { c with line := { c.line with items := { c.line.items with plantCode := code } } }
      else .error .badField := by
  unfold Controller.setConfig
  rw [if_neg (by decide)]
  refine if_congr Iff.rfl rfl ?_
  have set : c.line.items.set 0 code = if code.length = 4 ∧ code.all isAlnum = true then
      some { c.line.items with plantCode := code } else none := rfl
  rw [set]
  by_cases valid : code.length = 4 ∧ code.all isAlnum = true
  · rw [if_pos valid, if_pos valid]
  · rw [if_neg valid, if_neg valid]

/-- Settles O39: each item is judged by its range on the line as the request found it. -/
theorem setConfigReplacesItem : Obligations.SetConfigReplacesItem := by
  intro s h x a b takes v sets refused item
  let taken := s.part.taken (manageFrame h [3, 6, x, a, b]).markTaken.wire

  have ranged (code low high : Nat) (put : Nat → Items) (known : code ≤ 5) (positive : code ≠ 0)
      (set : s.part.line.items.set code [a, b] = if low ≤ read2 a b ∧ read2 a b ≤ high then some (put (read2 a b)) else none) :
      item code low high (put v) := by
    intro here
    have numeric : x.toNat ≠ 0 := by omega
    have judged (c : Controller) (line : c.line = s.part.line) := set_numeric s.part.line.items (put := put) set c (by rw [line]) known
    refine ⟨fun stopped => ?_, fun moving => ?_⟩
    · split
      · next inside =>
        have ok := (judged taken rfl).1 stopped
        rw [if_pos inside, ← here] at ok
        have answer := (judgeRequest_setConfig taken a b numeric).trans (commandAnswer_ok 6 ok)
        obtain ⟨t, run, -, placed, replied⟩ := exec_answered (i := .setConfig h [x, a, b]) rfl takes answer
        exact ⟨t, run, placed.line, replied⟩
      · next outside =>
        refine answersAlone_of rfl (fun c _ _ _ _ line _ => ?_) takes
        have bad := (judged c line).1 (by rw [line]; exact stopped)
        rw [if_neg outside, ← here] at bad
        exact (judgeRequest_setConfig c a b numeric).trans (commandAnswer_error 6 bad)
    · refine answersAlone_of rfl (fun c _ _ _ _ line _ => ?_) takes
      have bad := (judged c line).2 (by rw [line]; exact moving)
      rw [← here] at bad
      exact (judgeRequest_setConfig c a b numeric).trans (commandAnswer_error 6 bad)
  refine ⟨ranged 1 5 250 (fun v => { s.part.line.items with returnTime := v }) (by decide) (by decide) rfl,
    ranged 2 100 10000 (fun v => { s.part.line.items with sampleAgeLimit := v }) (by decide) (by decide) rfl,
    ranged 3 0 11 (fun v => { s.part.line.items with advanceWindow := v }) (by decide) (by decide) rfl,
    ranged 4 1 50 (fun v => { s.part.line.items with thermalLimit := v }) (by decide) (by decide) rfl,
    ranged 5 10 1000 (fun v => { s.part.line.items with zeroThreshold := v }) (by decide) (by decide) rfl,
    fun unknown => ?_, fun code zero long alnum takes7 stopped => ?_, fun code reason zero long takes7 why => ?_⟩
  · refine refusedAlone_of rfl (fun c => ?_) takes
    exact (judgeRequest_setConfig c a b (by omega)).trans (commandAnswer_error 6 (if_pos unknown))
  · have size : (3 :: 6 :: 0 :: code : List Byte).length = 7 := by simp [long]
    let taken := s.part.taken (manageFrame h (3 :: 6 :: 0 :: code)).markTaken.wire
    have ok := setConfig_plantCode taken code
    rw [if_neg (show ¬taken.line.state ≠ .stopped from not_not.mpr stopped), if_pos ⟨long, alnum⟩] at ok
    have answer := (judgeRequest_plantCode taken long).trans (commandAnswer_ok 6 ok)
    obtain ⟨t, run, -, placed, replied⟩ := exec_answered (i := .setConfig h (0 :: code)) rfl (by rw [size]; exact takes7) answer
    exact ⟨t, run, placed.line, replied⟩
  · have size : (3 :: 6 :: 0 :: code : List Byte).length = 7 := by simp [long]
    refine answersAlone_of rfl (fun c _ _ _ _ line _ => ?_) (by rw [size]; exact takes7)
    refine (judgeRequest_plantCode c long).trans (commandAnswer_error 6 ?_)
    rw [setConfig_plantCode, line]
    rcases why with ⟨moving, rfl⟩ | ⟨stopped, other, rfl⟩
    · exact if_pos moving
    · rw [if_neg (not_not.mpr stopped), if_neg (by rw [other]; exact fun k => nomatch k.2)]

/-! ### JACKET ENABLE (R118) -/

theorem jacketPass_of_no_waiting {c : Controller} (empty : c.waitingQueue = []) (n : JacketNo) : c.jacketPass n = c := by
  have nobody : c.recordFor n = none := by rw [Controller.recordFor, empty]; rfl
  unfold Controller.jacketPass
  split
  · rw [Controller.jacketPassDepth, nobody]
  · rfl

theorem mapped_iff (c : Controller) (p : Role → Bool) :
    c.nodeWhere? p ≠ none ↔ ∃ i : Fin 64, p (c.tables.stations.get i) = true := by
  unfold Controller.nodeWhere?
  rw [Ne, List.findIdx?_eq_none_iff]
  simp only [Vector.mem_toList_iff, not_forall, Bool.not_eq_false]
  constructor
  · rintro ⟨x, member, here⟩
    obtain ⟨i, small, rfl⟩ := Vector.mem_iff_getElem.mp member
    exact ⟨⟨i, small⟩, here⟩
  · rintro ⟨i, here⟩
    exact ⟨_, Vector.getElem_mem i.isLt, here⟩

/-- The part with a jacket brought to IDLE (R118). -/
def Controller.enabled (c : Controller) (n : JacketNo) : Controller :=
  (c.updJacket n fun _ => { Jacket.powerOn with state := .idle }).updVerif n fun _ => .powerOn

theorem enableJacket_eq (c : Controller) (n : JacketNo) :
    c.enableJacket n = if ¬((c.jacket n).state = .disabled ∨ (c.jacket n).state.isFault = true) then .error .busy
      else if c.nodeWhere? (Role.isJacket n) = none then .error .notMapped else .ok ((c.enabled n).jacketPass n) := rfl

theorem judgeRequest_jacketEnable (c : Controller) (n : JacketNo) :
    c.judgeRequest [3, 7, BitVec.ofNat 8 n.val] = c.commandAnswer 7 (c.enableJacket n) := by
  rw [← onJacket_number c.enableJacket n]
  rfl

theorem jacket_congr {c d : Controller} (jackets : d.jackets = c.jackets) (n : JacketNo) : d.jacket n = c.jacket n := by
  rw [Controller.jacket, jackets, Controller.jacket]

theorem nodeWhere?_congr {c d : Controller} (tables : d.tables = c.tables) (p : Role → Bool) : d.nodeWhere? p = c.nodeWhere? p := by
  rw [Controller.nodeWhere?, tables, Controller.nodeWhere?]

/-- Settles O40: the accepted command brings the jacket to IDLE and makes its pass; its answer only places frames. -/
theorem jacketEnableBringsIdle : Obligations.JacketEnableBringsIdle := by
  intro s h n takes number free mapped refused
  let taken := s.part.taken (manageFrame h [3, 7, number]).markTaken.wire
  have accepted (yes : free) (map : mapped) : taken.judgeRequest [3, 7, number] =
      { part := (taken.enabled n).jacketPass n, reason := none, data := field1 7 } := by
    refine (judgeRequest_jacketEnable taken n).trans (commandAnswer_ok 7 ?_)
    rw [enableJacket_eq]
    exact (if_neg (not_not.mpr yes)).trans (if_neg ((mapped_iff taken (Role.isJacket n)).mpr map))
  have refuses (reason : Reason) (why : ∀ c : Controller, c.jackets = s.part.jackets → c.tables = s.part.tables →
      c.enableJacket n = .error reason) : refused reason :=
    answersAlone_of rfl (fun c tables _ jackets _ _ _ =>
      (judgeRequest_jacketEnable c n).trans (commandAnswer_error 7 (why c jackets tables))) takes
  refine ⟨fun yes map empty => ?_, fun yes map => ?_, fun yes unmapped => refuses _ fun c jackets tables => ?_,
    fun busy => refuses _ fun c jackets _ => ?_⟩
  · have idle : (taken.enabled n).jacketPass n = taken.enabled n := jacketPass_of_no_waiting (c := taken.enabled n) empty n
    obtain ⟨t, run, -, placed, replied⟩ := exec_answered (i := .jacketEnable h [number]) rfl takes (accepted yes map)
    simp only [idle] at placed
    have jackets (m : JacketNo) := (placed.jacket m).trans
      (jacket_updJacket s.part n m fun _ => { Jacket.powerOn with state := .idle })
    have fields (m : JacketNo) := (placed.verif m).trans
      (verif_updVerif (taken.updJacket n fun _ => { Jacket.powerOn with state := .idle }) n m fun _ => .powerOn)
    exact ⟨t, run, (jackets n).trans (if_pos rfl), (fields n).trans (if_pos rfl),
      fun m other => ⟨(jackets m).trans (if_neg other), (fields m).trans (if_neg other)⟩, placed.records, replied⟩
  · obtain ⟨t, run, -, placed, replied⟩ := exec_answered (i := .jacketEnable h [number]) rfl takes (accepted yes map)
    exact ⟨t, run, replied, placed.records, placed.jackets, placed.verification, placed.queue⟩
  · rw [enableJacket_eq, jacket_congr jackets, nodeWhere?_congr tables, if_neg (not_not.mpr yes), if_pos]
    exact Decidable.not_not.mp fun map => unmapped ((mapped_iff s.part (Role.isJacket n)).mp map)
  · rw [enableJacket_eq, jacket_congr jackets, if_pos busy]

end Sys2Proof.Machine
end

section
/-! SUPPORT. What the placement of frames leaves of the notices (R179), and the notice commands (O45, R180). -/
namespace Sys2Proof.Machine

variable {c d e : Controller}

/-! ### The notices after a judgment and after an offer -/

@[simp] theorem notice_setMark (c : Controller) (m : InfeedMark) (k : NoticeClass) : (c.setMark m).notice k = c.notice k := rfl
@[simp] theorem notice_setBuffer (c : Controller) (b : ReplyBuffer) (k : NoticeClass) : (c.setBuffer b).notice k = c.notice k := rfl
@[simp] theorem notice_enqueue (c : Controller) (b : Body) (o : Owner) (x y : Bool) (k : NoticeClass) :
    (c.enqueue b o x y).notice k = c.notice k := rfl

theorem notice_putNotice (c : Controller) (cls k : NoticeClass) :
    (c.putNotice cls).notice k = if k = cls then
      { pending := false, enable := (c.notice cls).enable && !(cls.oneShot && !(c.notice cls).testMark), count := 0, subject := 0,
        cause := 0, testMark := false } else c.notice k := by
  rw [Controller.putNotice, notice_updNotice]
  rfl

/-- Only INFEED_HELD may have been raised, and its enable is the same: what a judgment of the infeed mark leaves of the notices (R53). -/
def HeldAlone (c d : Controller) : Prop :=
  (∀ k, k ≠ .infeedHeld → d.notice k = c.notice k) ∧ (d.notice .infeedHeld).enable = (c.notice .infeedHeld).enable

theorem HeldAlone.trans (h : HeldAlone c d) (k : HeldAlone d e) : HeldAlone c e :=
  ⟨fun cls other => (k.1 cls other).trans (h.1 cls other), k.2.trans h.2⟩

theorem heldAlone_of_notices (same : d.notices = c.notices) : HeldAlone c d := by
  have notice (k : NoticeClass) : d.notice k = c.notice k := by rw [Controller.notice, same, Controller.notice]
  exact ⟨fun k _ => notice k, by rw [notice]⟩

theorem HeldAlone.enable (h : HeldAlone c d) (k : NoticeClass) : (d.notice k).enable = (c.notice k).enable := by
  by_cases held : k = .infeedHeld
  · rw [held, h.2]
  · rw [h.1 k held]

theorem markRaise_heldAlone (c : Controller) (cause : Nat) : HeldAlone c (c.markRaise .infeedHeld 0 cause false) := by
  refine ⟨fun k other => ?_, ?_⟩
  · rw [Controller.markRaise, notice_updNotice, if_neg other]
  · rw [notice_markRaise]

theorem putNotice_heldAlone (c : Controller) : HeldAlone c (c.putNotice .infeedHeld) := by
  refine ⟨fun k other => ?_, ?_⟩
  · rw [notice_putNotice, if_neg other]
  · rw [notice_putNotice, if_pos rfl]
    exact Bool.and_true _

/-- The INFEED frame a flip makes: owed after a freeing, offered otherwise (R53, step 2). -/
def Controller.makeInfeed (c : Controller) (freed : Bool) (v : MarkValue) : Controller :=
  if freed then c.setMark { c.mark with owed := some { order := v.order, origin := .fresh } } else c.offerInfeed v.order .fresh

/-- What a flip does about the mark's frames, by what the mark owes (R53). -/
theorem flipFrame_cases (c : Controller) (freed : Bool) (v : MarkValue) :
    ((c.mark.owed = none ∨ ∃ o, o ≠ v.order ∧ c.mark.owed = some { order := o, origin := .repeated }) ∧
        c.flipFrame freed v = c.makeInfeed freed v) ∨
      ((∃ g, c.mark.owed = some { order := v.order, origin := g }) ∧ c.flipFrame freed v = c) ∨
      ((∃ o, o ≠ v.order ∧ c.mark.owed = some { order := o, origin := .fresh }) ∧
        c.flipFrame freed v = c.setMark { c.mark with owed := none }) := by
  unfold Controller.flipFrame
  rcases owed : c.mark.owed with _ | ⟨o, g⟩
  · exact .inl ⟨.inl rfl, rfl⟩
  · by_cases same : o = v.order
    · exact .inr (.inl ⟨⟨g, by rw [same]⟩, if_pos same⟩)
    · cases g
      · exact .inr (.inr ⟨⟨o, same, rfl⟩, if_neg same⟩)
      · exact .inl ⟨.inr ⟨o, same, rfl⟩, if_neg same⟩

theorem makeInfeed_notices (c : Controller) (freed : Bool) (v : MarkValue) : (c.makeInfeed freed v).notices = c.notices := by
  unfold Controller.makeInfeed Controller.offerInfeed
  split_ifs <;> rfl

theorem flipFrame_notices (c : Controller) (freed : Bool) (v : MarkValue) : (c.flipFrame freed v).notices = c.notices := by
  rcases flipFrame_cases c freed v with ⟨-, made⟩ | ⟨-, same⟩ | ⟨-, cleared⟩
  · rw [made, makeInfeed_notices]
  · rw [same]
  · rw [cleared]
    rfl

theorem raiseInfeedHeld_heldAlone (c : Controller) (cause : Nat) : HeldAlone c (c.raiseInfeedHeld cause) := by
  unfold Controller.raiseInfeedHeld
  dsimp only
  split
  · exact ((markRaise_heldAlone c cause).trans (putNotice_heldAlone _)).trans (heldAlone_of_notices rfl)
  · exact markRaise_heldAlone c cause

theorem judge_heldAlone (freed : Bool) (c : Controller) : HeldAlone c (c.judge freed) := by
  unfold Controller.judge
  dsimp only
  split
  · exact heldAlone_of_notices rfl
  · have flipped : HeldAlone c
        ((c.setMark { c.mark with reasons := c.infeedReasons, value := c.infeedReasons.wanted }).flipFrame freed c.infeedReasons.wanted) :=
      heldAlone_of_notices (flipFrame_notices _ _ _)
    split
    · exact flipped.trans (raiseInfeedHeld_heldAlone _ _)
    · exact flipped

theorem offerReply_heldAlone (c : Controller) : HeldAlone c c.offerReply := by
  unfold Controller.offerReply
  split
  · split
    · exact (heldAlone_of_notices rfl).trans (judge_heldAlone false _)
    · exact heldAlone_of_notices rfl
  · exact heldAlone_of_notices rfl

/-- A report of a class the infeed mark does not raise still stands. -/
theorem HeldAlone.reported (h : HeldAlone c d) (placed : OnlyPlaces c d) {cls : NoticeClass} (other : cls ≠ .infeedHeld)
    {subject cause : Nat} (made : c.Reported cls subject cause) : d.Reported cls subject cause := by
  rcases made with pending | ⟨e, member, body⟩
  · exact .inl (by rw [h.1 cls other]; exact pending)
  · exact .inr ⟨e, placed.stays member, body⟩

/-- A class that is not one-shot, or one that is not pending, keeps its enable, and a one-shot class that is not pending is not made so (R179). -/
def EnablesStand (c d : Controller) : Prop :=
  ∀ cls, cls.oneShot = false ∨ (c.notice cls).pending = false →
    (d.notice cls).enable = (c.notice cls).enable ∧ (cls.oneShot = false ∨ (d.notice cls).pending = false)

theorem EnablesStand.trans (h : EnablesStand c d) (k : EnablesStand d e) : EnablesStand c e := fun cls quiet =>
  have ⟨enable, still⟩ := h cls quiet
  have ⟨enable', still'⟩ := k cls still
  ⟨enable'.trans enable, still'⟩

theorem HeldAlone.enablesStand (h : HeldAlone c d) : EnablesStand c d := fun cls quiet => by
  refine ⟨h.enable cls, ?_⟩
  by_cases held : cls = .infeedHeld
  · exact .inl (by rw [held]; rfl)
  · rwa [h.1 cls held]

theorem putNotice_enablesStand {cls : NoticeClass} (placeable : c.noticePlaceable cls = true) : EnablesStand c (c.putNotice cls) := by
  intro k quiet
  rw [notice_putNotice]
  by_cases same : k = cls
  · obtain rfl := same
    have pending : (c.notice k).pending = true := by
      simp only [Controller.noticePlaceable, Controller.offerable, Bool.and_eq_true] at placeable
      exact placeable.1.1.1
    have many : k.oneShot = false := quiet.resolve_right (by rw [pending]; decide)
    simp [many]
  · rw [if_neg same]
    exact ⟨rfl, quiet⟩

theorem offerNotice_enablesStand (c : Controller) (cls : NoticeClass) : EnablesStand c (c.offerNotice cls) := by
  unfold Controller.offerNotice
  split
  · next placeable => exact (putNotice_enablesStand placeable).trans (judge_heldAlone false _).enablesStand
  · exact fun _ quiet => ⟨rfl, quiet⟩

theorem offerNotices_enablesStand (c : Controller) : EnablesStand c c.offerNotices := by
  unfold Controller.offerNotices
  generalize noticeClasses = l
  induction l generalizing c with
  | nil => exact fun _ quiet => ⟨rfl, quiet⟩
  | cons cls l ih => exact (offerNotice_enablesStand c cls).trans (ih _)

/-! ### SET NOTICE ENABLES and TEST NOTICE (R180) -/

/-- After a request that does not set the enables only the reply is offered (R180, R181). -/
theorem request_offersReply {payload : List Byte} {a : Answer} (answer : c.judgeRequest payload = a)
    (other : isSetEnables payload a = false) (source : Nat) :
    c.request source payload = (a.part.setBuffer (.holding
      { destination := source, kind := payloadKind payload, reason := a.reason, data := a.data })).offerReply := by
  unfold Controller.request
  rw [answer]
  exact if_neg (by rw [other]; decide)

theorem judgeRequest_setEnables (c : Controller) {l : List Byte} (twelve : l.length = 12) :
    c.judgeRequest (3 :: 11 :: l) = c.commandAnswer 11 (c.setEnables l) :=
  match l, twelve with
  | [_, _, _, _, _, _, _, _, _, _, _, _], _ => rfl

/-- The part with the enables of these classes replaced (R180). -/
def Controller.withEnables (c : Controller) (enables : List Byte) (classes : List NoticeClass) : Controller :=
  classes.foldl (fun c cls => c.updNotice cls fun s => { s with enable := (enables[cls.index.val]?).getD 0 == 1 }) c

theorem withEnables_notice (enables : List Byte) (classes : List NoticeClass) (c : Controller) (k : NoticeClass) :
    ((c.withEnables enables classes).notice k).enable =
        (if k ∈ classes then (enables[k.index.val]?).getD 0 == 1 else (c.notice k).enable) ∧
      ((c.withEnables enables classes).notice k).pending = (c.notice k).pending := by
  induction classes generalizing c with
  | nil => exact ⟨rfl, rfl⟩
  | cons cls classes ih =>
    obtain ⟨enable, pending⟩ := ih (c.updNotice cls fun s => { s with enable := (enables[cls.index.val]?).getD 0 == 1 })
    refine ⟨enable.trans ?_, pending.trans ?_⟩ <;> rw [notice_updNotice]
    · by_cases same : k = cls
      · simp [same]
      · simp [same]
    · split
      · next same => rw [same]
      · rfl

theorem withEnables_same (enables : List Byte) (classes : List NoticeClass) (c : Controller) :
    (c.withEnables enables classes).records = c.records ∧ (c.withEnables enables classes).jackets = c.jackets ∧
      (c.withEnables enables classes).line = c.line := by
  induction classes generalizing c with
  | nil => exact ⟨rfl, rfl, rfl⟩
  | cons cls classes ih => exact ih _

theorem mem_noticeClasses (k : NoticeClass) : k ∈ noticeClasses := by cases k <;> decide

theorem setEnables_eq (c : Controller) (l : List Byte) :
    c.setEnables l = if l.all (fun b => b == 0 || b == 1) then
      .ok ((c.withEnables l noticeClasses).setQueue ((c.withEnables l noticeClasses).ring.queue.map fun e => { e with clearedEnable := false }))
      else .error .badField := by
  unfold Controller.setEnables Controller.withEnables
  rfl

theorem setEnables_ok {l : List Byte} (flags : ∀ b ∈ l, b = 0 ∨ b = 1) :
    ∃ d, c.setEnables l = .ok d ∧ (∀ k, (d.notice k).enable = ((l[k.index.val]?).getD 0 == 1) ∧ (d.notice k).pending = (c.notice k).pending) ∧
      d.records = c.records ∧ d.jackets = c.jackets ∧ d.line = c.line := by
  have all : l.all (fun b => b == 0 || b == 1) = true := by simpa using flags
  have set := (setEnables_eq c l).trans (if_pos all)
  have same := withEnables_same l noticeClasses c
  have notices (k : NoticeClass) := withEnables_notice l noticeClasses c k
  generalize c.withEnables l noticeClasses = d at set same notices
  refine ⟨_, set, fun k => ?_, same⟩
  obtain ⟨enable, pending⟩ := notices k
  rw [if_pos (mem_noticeClasses k)] at enable
  exact ⟨enable, pending⟩

theorem setEnables_bad {l : List Byte} (bad : ∃ b ∈ l, b ≠ 0 ∧ b ≠ 1) : c.setEnables l = .error .badField :=
  if_neg (by simpa using bad)

theorem classOfCode_code (cls : NoticeClass) : classOfCode cls.code = some cls := by cases cls <;> rfl

theorem classOfCode_above {n : Nat} (outside : n = 0 ∨ 12 < n) : classOfCode n = none := by
  unfold classOfCode
  split
  · rfl
  · exact List.getElem?_eq_none (by simp only [noticeClasses, List.length_cons, List.length_nil]; omega)

/-- A test raise is reported, and its placement clears no enable (R180). -/
theorem testRaise (c : Controller) (cls : NoticeClass) :
    (∀ k, (((c.markRaise cls 0 0 true).offerNotice cls).notice k).enable = (c.notice k).enable) ∧
      (cls ≠ .infeedHeld → ((c.markRaise cls 0 0 true).offerNotice cls).Reported cls 0 0) := by
  have marked := notice_markRaise c cls 0 0 true
  have enables (k : NoticeClass) : ((c.markRaise cls 0 0 true).notice k).enable = (c.notice k).enable := by
    by_cases same : k = cls
    · rw [same, marked]
    · rw [Controller.markRaise, notice_updNotice, if_neg same]
  unfold Controller.offerNotice
  split
  · refine ⟨fun k => ((judge_heldAlone false _).enable k).trans ?_, fun _ => .inr ⟨_, (judge_onlyPlaces _ _).stays
      (List.mem_append_right _ (List.mem_singleton_self _)), min 255 ((c.notice cls).count + 1), ?_⟩⟩
    · rw [notice_putNotice]
      split
      · next same => simp [same, marked]
      · exact enables k
    · simp [Controller.noticeBody, marked]
  · exact ⟨enables, fun _ => .inl (by simp [marked])⟩

theorem judgeRequest_testNotice (c : Controller) (code : Byte) : c.judgeRequest [3, 12, code] = c.commandAnswer 12 (c.testNotice code.toNat) := rfl

/-- Settles O45: the enables stand through the placement of the reply and the offers after it; a test raise stands through the reply's. -/
theorem noticeCommands : Obligations.NoticeCommands := by
  refine ⟨fun s h l takes twelve => ⟨fun flags => ?_, fun bad => ?_⟩, fun s h code takes => ⟨fun cls named => ?_, fun outside => ?_⟩⟩
  · have size : (3 :: 11 :: l : List Byte).length = 14 := by simp [twelve]
    let taken := s.part.taken (manageFrame h (3 :: 11 :: l)).markTaken.wire
    obtain ⟨d, ok, notices, records, jackets, line⟩ := setEnables_ok (c := taken) flags
    have answer := (judgeRequest_setEnables taken twelve).trans (commandAnswer_ok 11 ok)
    obtain ⟨t, run, made, placed, replied⟩ := exec_answered (i := .setNoticeEnables h l) rfl (by rw [size]; exact takes) answer
    refine ⟨t, run, fun cls quiet => ?_, placed.records.trans records, placed.jackets.trans jackets, placed.line.trans line, replied⟩
    have set : isSetEnables (3 :: 11 :: l) { part := d, reason := none, data := field1 11 } = true := rfl
    have stand : EnablesStand d t := by
      rw [made, Controller.request, answer]
      refine Eq.mpr (congrArg (EnablesStand d) (if_pos set)) ?_
      have replies : HeldAlone d (Controller.reply h.source.toNat (3 :: 11 :: l) { part := d, reason := none, data := field1 11 }) :=
        (heldAlone_of_notices rfl).trans (offerReply_heldAlone _)
      exact replies.enablesStand.trans (offerNotices_enablesStand _)
    have enable := (stand cls (quiet.imp id (notices cls).2.trans)).1
    rw [enable, (notices cls).1, beq_iff_eq]
    have inside : cls.index.val < l.length := by rw [twelve]; exact cls.index.isLt
    rw [List.getElem?_eq_getElem inside, Option.getD_some, Option.some_inj]
  · have size : (3 :: 11 :: l : List Byte).length = 14 := by simp [twelve]
    let taken := s.part.taken (manageFrame h (3 :: 11 :: l)).markTaken.wire
    have answer := (judgeRequest_setEnables taken twelve).trans (commandAnswer_error 11 (setEnables_bad bad))
    obtain ⟨t, run, made, placed, replied⟩ := exec_answered (i := .setNoticeEnables h l) rfl (by rw [size]; exact takes) answer
    have alone := answered_onlyAnswers (f := none) answer (.inl rfl) h.source.toNat
    refine ⟨t, run, made ▸ alone, fun cls => ?_, replied⟩
    rw [made, request_offersReply answer rfl]
    exact (offerReply_heldAlone _).enable cls
  · let taken := s.part.taken (manageFrame h [3, 12, code]).markTaken.wire
    have ok : taken.testNotice code.toNat = .ok ((taken.markRaise cls 0 0 true).offerNotice cls) := by
      rw [Controller.testNotice, ← named, classOfCode_code]
    have answer := (judgeRequest_testNotice taken code).trans (commandAnswer_ok 12 ok)
    obtain ⟨t, run, made, placed, replied⟩ := exec_answered (i := .testNotice h [code]) rfl takes answer
    obtain ⟨enables, reported⟩ := testRaise taken cls
    have held : HeldAlone ((taken.markRaise cls 0 0 true).offerNotice cls) t := by
      rw [made, request_offersReply answer rfl]
      exact (heldAlone_of_notices rfl).trans (offerReply_heldAlone _)
    refine ⟨t, run, fun other => ?_, fun k => (held.enable k).trans (enables k), ?_, replied⟩
    · rcases reported other with pending | ⟨e, member, body⟩
      · exact .inl (by rw [held.1 cls other]; exact pending)
      · exact .inr ⟨e, placed.stays member, body⟩
    · exact placed.records.trans (offerNotice_onlyPlaces _ _).records
  · refine refusedAlone_of rfl (fun c => (judgeRequest_testNotice c code).trans (commandAnswer_error 12 ?_)) takes
    rw [Controller.testNotice, classOfCode_above outside]

end Sys2Proof.Machine
end

section
/-! SUPPORT. The flips of the infeed mark (O44, R53, R54). -/
namespace Sys2Proof.Machine

variable {c : Controller}

/-! ### The frame of a flip -/

/-- A flip to this value makes an INFEED frame (R53, step 2). -/
def Controller.FlipMakes (c : Controller) (v : MarkValue) : Prop :=
  c.mark.owed = none ∨ ∃ o, o ≠ v.order ∧ c.mark.owed = some { order := o, origin := .repeated }

/-- A flip to this value places the frame it makes (R54). -/
def Controller.FlipPlaces (c : Controller) (freed : Bool) (v : MarkValue) : Prop :=
  c.FlipMakes v ∧ freed = false ∧ c.hasRoom (.infeed v.order) = true

/-- The queue after a flip, by whether it placed its frame. -/
def FlipQueue (c d : Controller) (freed : Bool) (v : MarkValue) : Prop :=
  (c.FlipPlaces freed v → d.ring.queue = c.ring.queue ++ [{
      destination := c.nodeWhere (· == .entry), body := .infeed v.order, owner := .infeed, clearedEnable := false, testMark := false }]) ∧
    (¬c.FlipPlaces freed v → d.ring.queue = c.ring.queue)

/-- What the mark owes after a flip. -/
def FlipOwes (c d : Controller) (freed : Bool) (v : MarkValue) : Prop :=
  (c.FlipPlaces freed v → d.mark.owed = none) ∧
    (c.FlipMakes v → ¬c.FlipPlaces freed v → d.mark.owed = some { order := v.order, origin := .fresh }) ∧
    ∀ o, c.mark.owed = some { order := o, origin := .fresh } → o ≠ v.order → d.mark.owed = none

theorem makeInfeed_placed {freed : Bool} {v : MarkValue} (now : freed = false) (room : c.hasRoom (.infeed v.order) = true) :
    c.makeInfeed freed v = (c.enqueue (.infeed v.order) .infeed).setMark { c.mark with owed := none } := by
  rw [now]
  exact if_pos room

theorem makeInfeed_owed {freed : Bool} {v : MarkValue} (not : ¬(freed = false ∧ c.hasRoom (.infeed v.order) = true)) :
    c.makeInfeed freed v = c.setMark { c.mark with owed := some { order := v.order, origin := .fresh } } := by
  cases freed
  · exact if_neg fun room => not ⟨rfl, room⟩
  · rfl

theorem flipFrame_spec (c : Controller) (freed : Bool) (v : MarkValue) :
    (c.flipFrame freed v).mark.value = c.mark.value ∧ FlipQueue c (c.flipFrame freed v) freed v ∧
      FlipOwes c (c.flipFrame freed v) freed v := by
  rcases flipFrame_cases c freed v with ⟨makes, made⟩ | ⟨⟨g, owed⟩, same⟩ | ⟨⟨o, other, owed⟩, cleared⟩
  · have opposite {o : InfeedOrder} (owes : c.mark.owed = some { order := o, origin := .fresh }) : False := by
      rcases makes with none | ⟨_, _, repeated⟩
      · rw [none] at owes
        cases owes
      · rw [repeated] at owes
        cases owes
    by_cases room : freed = false ∧ c.hasRoom (.infeed v.order) = true
    · rw [made, makeInfeed_placed room.1 room.2]
      exact ⟨rfl, ⟨fun _ => rfl, fun not => absurd ⟨makes, room⟩ not⟩, fun _ => rfl, fun _ not => absurd ⟨makes, room⟩ not,
        fun o owes => (opposite owes).elim⟩
    · rw [made, makeInfeed_owed room]
      exact ⟨rfl, ⟨fun places => absurd places.2 room, fun _ => rfl⟩, fun places => absurd places.2 room, fun _ _ => rfl,
        fun o owes => (opposite owes).elim⟩
  · have idle : ¬c.FlipMakes v := by
      rintro (none | ⟨o, other, repeated⟩)
      · rw [none] at owed
        cases owed
      · rw [repeated] at owed
        cases owed
        exact other rfl
    rw [same]
    refine ⟨rfl, ⟨fun places => absurd places.1 idle, fun _ => rfl⟩, fun places => absurd places.1 idle, fun makes => absurd makes idle,
      fun o owes other => ?_⟩
    rw [owed] at owes
    cases owes
    exact absurd rfl other
  · have idle : ¬c.FlipMakes v := by
      rintro (none | ⟨o, other, repeated⟩)
      · rw [none] at owed
        cases owed
      · rw [repeated] at owed
        cases owed
    rw [cleared]
    exact ⟨rfl, ⟨fun places => absurd places.1 idle, fun _ => rfl⟩, fun places => absurd places.1 idle, fun makes => absurd makes idle,
      fun _ _ _ => rfl⟩

/-! ### INFEED_HELD -/

theorem nodeWhere?_master (c : Controller) :
    (c.nodeWhere? (· == .master)).isSome = true ↔ ∃ i : Fin 64, c.tables.stations.get i = .master := by
  rw [Option.isSome_iff_ne_none, mapped_iff]
  simp only [beq_iff_eq]

theorem noticePlaceable_iff (c : Controller) (cls : NoticeClass) :
    c.noticePlaceable cls = true ↔ (c.notice cls).pending = true ∧ (c.notice cls).enable = true ∧
      (∃ i : Fin 64, c.tables.stations.get i = .master) ∧ c.hasRoom (c.noticeBody cls) = true := by
  rw [Controller.noticePlaceable, Controller.offerable, Bool.and_eq_true, Bool.and_eq_true, Bool.and_eq_true, nodeWhere?_master, and_assoc,
    and_assoc]

theorem normalRoom_iff (q : List QueueEntry) : normalRoom q = true ↔ q.length < 16 ∧ normalCount q < 12 := by
  rw [normalRoom, Bool.and_eq_true, decide_eq_true_iff, decide_eq_true_iff]
  rfl

/-- The three conditions of room (R7). -/
theorem hasRoom_iff (c : Controller) (b : Body) :
    c.hasRoom b = true ↔ ¬(c.line.state = .holding ∧ b.holdSet = true) ∧ c.ring.queue.length < 16 ∧
      (b.urgent = false → normalCount c.ring.queue < 12) := by
  rw [Controller.hasRoom, Bool.and_eq_true, Bool.not_eq_true', Bool.eq_false_iff, Ne, Bool.and_eq_true, beq_iff_eq]
  refine and_congr_right fun _ => ?_
  cases b.urgent
  · refine (normalRoom_iff _).trans (and_congr_right fun _ => ?_)
    exact ⟨fun few _ => few, fun few => few rfl⟩
  · exact decide_eq_true_iff.trans ⟨fun short => ⟨short, nofun⟩, And.left⟩

theorem hasRoom_normal {c : Controller} {b : Body} (moving : c.line.state ≠ .holding) (normal : b.urgent = false) :
    c.hasRoom b = true ↔ c.ring.queue.length < 16 ∧ normalCount c.ring.queue < 12 := by
  rw [hasRoom_iff, normal]
  exact ⟨fun h => ⟨h.2.1, h.2.2 rfl⟩, fun h => ⟨fun k => moving k.1, h.1, fun _ => h.2⟩⟩

/-- A flip to HELD on a line that is RUNNING raises INFEED_HELD: its NOTICE is placed behind the queue, or the class stays pending (R53, step 4). -/
theorem raiseInfeedHeld_spec (c : Controller) (cause : Nat) (running : c.line.state = .running) :
    let count := min 255 ((c.notice .infeedHeld).count + 1)
    let sent : Prop := (c.notice .infeedHeld).enable = true ∧ (∃ i : Fin 64, c.tables.stations.get i = .master) ∧
      c.ring.queue.length < 16 ∧ normalCount c.ring.queue < 12
    (c.raiseInfeedHeld cause).mark.value = c.mark.value ∧ (c.raiseInfeedHeld cause).mark.owed = c.mark.owed ∧
      (sent → (c.raiseInfeedHeld cause).ring.queue = c.ring.queue ++ [{
          destination := c.nodeWhere (· == .master), body := .notice .infeedHeld count 0 cause, owner := .notice .infeedHeld,
          clearedEnable := false, testMark := false }] ∧
        (c.raiseInfeedHeld cause).notice .infeedHeld =
          { pending := false, enable := true, count := 0, subject := 0, cause := 0, testMark := false }) ∧
      (¬sent → (c.raiseInfeedHeld cause).ring.queue = c.ring.queue ∧ (c.raiseInfeedHeld cause).notice .infeedHeld =
          { c.notice .infeedHeld with pending := true, count, subject := 0, cause, testMark := false }) := by
  intro count sent
  have marked := notice_markRaise c .infeedHeld 0 cause false
  have room : (c.markRaise .infeedHeld 0 cause false).noticePlaceable .infeedHeld = true ↔ sent := by
    rw [noticePlaceable_iff, hasRoom_normal (by rw [show (c.markRaise _ _ _ _).line = c.line from rfl, running]; decide) rfl, marked]
    exact ⟨fun h => h.2, fun h => ⟨rfl, h⟩⟩
  unfold Controller.raiseInfeedHeld
  dsimp only
  split
  · next placeable =>
    have here := room.mp placeable
    refine ⟨rfl, rfl, fun _ => ⟨?_, ?_⟩, fun not => absurd here not⟩
    · show c.ring.queue ++ [_] = _
      simp only [Controller.noticeBody, marked]
      rfl
    · show ((c.markRaise .infeedHeld 0 cause false).putNotice .infeedHeld).notice .infeedHeld = _
      rw [notice_putNotice, if_pos rfl, marked]
      simp [here.1, NoticeClass.oneShot]
  · next unplaceable =>
    exact ⟨rfl, rfl, fun here => absurd (room.mpr here) unplaceable, fun _ => ⟨rfl, marked⟩⟩

/-! ### The judgment -/

/-- The mark with the value and the reasons of the conditions that now fail (R53, step 1). -/
def Controller.flipped (c : Controller) : Controller := c.setMark { c.mark with reasons := c.infeedReasons, value := c.infeedReasons.wanted }

theorem judge_flips {freed : Bool} (flip : c.mark.value ≠ c.infeedReasons.wanted) :
    c.judge freed = if c.infeedReasons.wanted = .held ∧ (c.flipped.flipFrame freed c.infeedReasons.wanted).line.state = .running then
      (c.flipped.flipFrame freed c.infeedReasons.wanted).raiseInfeedHeld c.infeedReasons.code
      else c.flipped.flipFrame freed c.infeedReasons.wanted := by
  unfold Controller.judge
  exact if_neg flip

theorem code_of_running (running : c.line.state = .running) : c.infeedReasons.code =
    (if c.records.length < 64 then 0 else 2) + (if c.infeedReasons.queueFull then 4 else 0) := by
  have started : c.infeedReasons.notRunning = false := by simp [Controller.infeedReasons, running]
  have full : c.infeedReasons.registerFull = !decide (c.records.length < 64) := rfl
  rw [InfeedReasons.code, started, full]
  by_cases room : c.records.length < 64 <;> cases c.infeedReasons.queueFull <;> simp [room]

/-- Settles O44: the flip's frame, what the mark owes after it, and the raise behind it. -/
theorem infeedFlips : Obligations.InfeedFlips := by
  intro c freed before wanted d frame makes places count cause notice sent
  refine ⟨fun stands => if_pos stands, fun flip placed unplaced => ?_⟩
  obtain ⟨value, ⟨queued, unqueued⟩, none, owes, clears⟩ := flipFrame_spec c.flipped freed wanted
  have flips := flipFrame_onlyPlaces c.flipped freed wanted
  have notices := flipFrame_notices c.flipped freed wanted
  have judged : d = _ := judge_flips (freed := freed) flip
  have only : OnlyPlaces c d := judge_onlyPlaces freed c
  have queue : (c.flipped.flipFrame freed wanted).ring.queue = before := by
    by_cases here : places
    · exact (queued here).trans (placed here).symm
    · exact (unqueued here).trans (unplaced here).symm
  have held : (c.flipped.flipFrame freed wanted).notice .infeedHeld = c.notice .infeedHeld := by
    rw [Controller.notice, notices]
    rfl
  by_cases raises : wanted = .held ∧ (c.flipped.flipFrame freed wanted).line.state = .running
  · rw [if_pos raises] at judged
    have running : c.line.state = .running := (congrArg LineControl.state flips.line).symm.trans raises.2
    have node : (c.flipped.flipFrame freed wanted).nodeWhere (· == .master) = c.nodeWhere (· == .master) :=
      congrArg (Option.getD · 0) (nodeWhere?_congr flips.tables _)
    have spec := raiseInfeedHeld_spec (c.flipped.flipFrame freed wanted) c.infeedReasons.code raises.2
    rw [held, queue, flips.tables, code_of_running running, node] at spec
    rw [code_of_running running] at judged
    rw [← judged] at spec
    obtain ⟨value', owed, placedNotice, pendingNotice⟩ := spec
    refine ⟨value'.trans value, only.records, only.jackets, only.line, fun here => owed.trans (none here),
      fun making not => owed.trans (owes making not), fun o owing other => owed.trans (clears o owing other),
      fun _ _ => ⟨placedNotice, pendingNotice⟩, fun quiet => ?_⟩
    rcases quiet with released | moving
    · rw [raises.1] at released
      cases released
    · exact absurd running moving
  · rw [if_neg raises] at judged
    rw [judged]
    refine ⟨value, flips.records, flips.jackets, flips.line, none, owes, clears, fun hold running => ?_, fun _ => ⟨queue, notices⟩⟩
    exact absurd ⟨hold, (congrArg LineControl.state flips.line).trans running⟩ raises

end Sys2Proof.Machine
end

section
/-! SUPPORT. The notices and the order of the owed arbitration (O43, R7, R8, R178, R179). -/
namespace Sys2Proof.Machine

variable {c d e : Controller}

/-! ### A judgment that changes nothing but the reasons -/

/-- The value of the infeed mark is the one its conditions ask for (R53). -/
def Controller.Calm (c : Controller) : Prop := c.mark.value = c.infeedReasons.wanted

theorem judge_calm (calm : c.Calm) (freed : Bool) : c.judge freed = c.refreshReasons := if_pos calm

theorem wanted_of_not_running (c : Controller) (stands : c.line.state ≠ .running) : c.infeedReasons.wanted = .held := by
  have started : c.infeedReasons.notRunning = true := by simpa [Controller.infeedReasons] using stands
  rw [InfeedReasons.wanted, started]
  rfl

theorem queueFull_of_short (short : c.ring.queue.length < 12) : c.infeedReasons.queueFull = false := by
  have kept := List.length_filter_le (fun e : QueueEntry => e.owner != .infeed) c.ring.queue
  have counted := List.countP_le_length (p := fun e : QueueEntry => !e.body.urgent) (l := c.ring.queue.filter fun e => e.owner != .infeed)
  rw [Controller.infeedReasons, Bool.not_eq_false', normalRoom_iff, normalCount]
  omega

/-- A part whose queue only grew, to fewer than twelve frames on a RUNNING line, has the same conditions (R52). -/
theorem calm_of_grown (calm : c.Calm) (value : d.mark.value = c.mark.value) (line : d.line = c.line)
    (count : d.records.length = c.records.length)
    (short : c.line.state ≠ .running ∨ c.ring.queue.length < 12 ∧ d.ring.queue.length < 12) : d.Calm := by
  have same : d.infeedReasons.wanted = c.infeedReasons.wanted := by
    rcases short with stands | ⟨before, after⟩
    · rw [wanted_of_not_running c stands, wanted_of_not_running d (by rw [line]; exact stands)]
    · have full := (queueFull_of_short after).trans (queueFull_of_short before).symm
      have running : d.infeedReasons.notRunning = c.infeedReasons.notRunning := by simp only [Controller.infeedReasons, line]
      have register : d.infeedReasons.registerFull = c.infeedReasons.registerFull := by simp only [Controller.infeedReasons, count]
      rw [InfeedReasons.wanted, full, running, register, InfeedReasons.wanted]
  exact value.trans (calm.trans same.symm)

/-! ### Frames offered in order -/

/-- The frames offered cannot fill the queue so far that the infeed mark flips: the line is not RUNNING, or there is room for all (R52). -/
def Quiet (c : Controller) (owed : List Body) : Prop := c.Calm ∧ (c.line.state ≠ .running ∨ c.ring.queue.length + owed.length < 12)

/-- The frames placed, of these offered in this order: all of them while there is room and no hold, and some of them in their order otherwise. -/
def Chosen (c : Controller) (owed placed : List Body) : Prop :=
  placed.Sublist owed ∧ (c.line.state ≠ .holding → c.ring.queue.length + owed.length < 12 → placed = owed)

/-- These frames were offered in this order (R8). -/
structure Offered (owed : List Body) (c d : Controller) : Prop where
  line : d.line = c.line
  queue : ∃ placed, d.ring.queue = c.ring.queue ++ placed ∧ (Quiet c owed → Chosen c owed (placed.map QueueEntry.body))
  calm : Quiet c owed → d.Calm

theorem Offered.trans {a b b' : List Body} (h : Offered a c d) (k : Offered b' d e) (same : Quiet c a → b' = b) : Offered (a ++ b) c e := by
  obtain ⟨placed, queue, chosen⟩ := h.queue
  obtain ⟨placed', queue', chosen'⟩ := k.queue
  have parts (quiet : Quiet c (a ++ b)) : Quiet c a ∧ Quiet d b := by
    have before : Quiet c a := ⟨quiet.1, quiet.2.imp id fun short => by rw [List.length_append] at short; omega⟩
    refine ⟨before, h.calm before, ?_⟩
    by_cases running : c.line.state = .running
    · have short := quiet.2.resolve_left (not_not.mpr running)
      rw [List.length_append] at short
      have all := congrArg List.length ((chosen before).2 (by rw [running]; decide) (by omega))
      rw [List.length_map] at all
      exact .inr (by rw [queue, List.length_append, all]; omega)
    · exact .inl (by rw [h.line]; exact running)
  refine ⟨k.line.trans h.line, ⟨placed ++ placed', by rw [queue', queue, List.append_assoc], fun quiet => ?_⟩, fun quiet => ?_⟩
  · obtain ⟨before, after⟩ := parts quiet
    rw [same before] at chosen'
    rw [List.map_append]
    refine ⟨(chosen before).1.append (chosen' after).1, fun moving short => ?_⟩
    rw [List.length_append] at short
    have first := (chosen before).2 moving (by omega)
    have all := congrArg List.length first
    rw [List.length_map] at all
    rw [first, (chosen' after).2 (by rw [h.line]; exact moving) (by rw [queue, List.length_append, all]; omega)]
  · obtain ⟨before, after⟩ := parts quiet
    exact k.calm (by rw [same before]; exact after)

/-- Nothing is placed: nothing was offered, or there was no room. -/
theorem offered_none {owed : List Body} (line : d.line = c.line) (queue : d.ring.queue = c.ring.queue) (value : d.mark.value = c.mark.value)
    (count : d.records.length = c.records.length)
    (why : c.Calm → c.line.state ≠ .holding → c.ring.queue.length + owed.length < 12 → owed = []) : Offered owed c d := by
  refine ⟨line, ⟨[], by rw [queue, List.append_nil], fun quiet => ⟨List.nil_sublist _, fun moving short => (why quiet.1 moving short).symm⟩⟩,
    fun quiet => calm_of_grown quiet.1 value line count (quiet.2.imp id fun short => ?_)⟩
  rw [queue]
  omega

/-- A queue with room for one more of its NORMAL frames has room for any, outside a hold (R7). -/
theorem room_of_short (b : Body) (moving : c.line.state ≠ .holding) (short : c.ring.queue.length + 1 < 12) : c.hasRoom b = true := by
  have counted := List.countP_le_length (p := fun e : QueueEntry => !e.body.urgent) (l := c.ring.queue)
  rw [hasRoom_iff, normalCount]
  exact ⟨fun holds => moving holds.1, by omega, fun _ => by omega⟩

theorem offered_refused {b : Body} {rest : List Body} (room : ¬c.hasRoom b = true) (line : d.line = c.line)
    (queue : d.ring.queue = c.ring.queue) (value : d.mark.value = c.mark.value) (count : d.records.length = c.records.length) :
    Offered (b :: rest) c d :=
  offered_none line queue value count fun _ moving short =>
    absurd (room_of_short b moving (by rw [List.length_cons] at short; omega)) room

theorem calm_of_placed {b : Body} {p : QueueEntry} (quiet : Quiet c [b]) (line : d.line = c.line)
    (queue : d.ring.queue = c.ring.queue ++ [p]) (value : d.mark.value = c.mark.value) (count : d.records.length = c.records.length) : d.Calm :=
  calm_of_grown quiet.1 value line count (quiet.2.imp id fun short => by
    rw [queue, List.length_append]
    simp only [List.length_cons, List.length_nil] at short ⊢
    omega)

/-- One frame placed, and the mark judged. -/
theorem offered_placed {b : Body} {p : QueueEntry} (body : p.body = b) (line : d.line = c.line)
    (queue : d.ring.queue = c.ring.queue ++ [p]) (value : d.mark.value = c.mark.value) (count : d.records.length = c.records.length) :
    Offered [b] c (d.judge false) := by
  obtain ⟨behind, rest⟩ := (judge_onlyPlaces false d).queue
  refine ⟨(judge_onlyPlaces false d).line.trans line, ⟨p :: behind, ?_, fun quiet => ?_⟩, fun quiet => ?_⟩
  · rw [← rest, queue, List.append_assoc]
    rfl
  · have calm := calm_of_placed quiet line queue value count
    rw [judge_calm calm false] at rest
    have none : behind = [] := List.append_right_eq_self.mp rest
    rw [none, List.map_cons, body]
    exact ⟨List.Sublist.refl _, fun _ _ => rfl⟩
  · have calm := calm_of_placed quiet line queue value count
    rw [judge_calm calm false]
    exact calm

/-! ### What is owed, in the order of the arbitration (R8) -/

/-- A step of the owed arbitration. -/
inductive OwedItem
  | command (vent : Bool) (n : JacketNo)
  | infeed (o : InfeedOrder)
  | record (slot : Nat)
  | reply
  | notice (cls : NoticeClass)
deriving DecidableEq

/-- The frames a record owes: its TEST RESULT, then its orders (R8, R140, R157). -/
def Record.owes (r : Record) : List Body :=
  (if r.resultOwed then r.lastResult.toList.map (Body.testResult r.serial) else []) ++ r.owedOrders.map (Order.body r.serial)

def ReplyBuffer.owes : ReplyBuffer → List Body
  | .holding r => [.reply r]
  | _ => []

/-- The frames a step of the arbitration offers. -/
def Controller.owes (c : Controller) : OwedItem → List Body
  | .command vent n => ((c.jacket n).owedCommand.toList.filter fun k => (k == .vent) == vent).map (Body.command n)
  | .infeed o =>
    if c.mark.owed.map OwedInfeed.order = some o ∧ c.mark.value = (if o = .hold then .held else .released) then [.infeed o] else []
  | .record slot => (c.recordAt slot).elim [] Record.owes
  | .reply => c.responder.buffer.owes
  | .notice cls =>
    if (c.notice cls).pending ∧ (c.notice cls).enable ∧ Role.master ∈ c.tables.stations.toList then
      [.notice cls (c.notice cls).count (c.notice cls).subject (c.notice cls).cause]
    else []

/-- A step of the arbitration. -/
def Controller.offerItem (inner : Controller → Controller) (c : Controller) : OwedItem → Controller
  | .command vent n => c.offerOwedCommand vent n
  | .infeed o => c.offerOwedInfeed o
  | .record slot => Controller.offerRecordWith inner c slot
  | .reply => c.offerReply
  | .notice cls => c.offerNotice cls

/-- The steps of the arbitration in their order. -/
def Controller.owedItems (c : Controller) : List OwedItem :=
  jacketNumbers.map (.command true) ++ [.infeed .hold] ++ c.records.map (fun r => .record r.slot) ++ jacketNumbers.map (.command false) ++
    [.infeed .release] ++ [.reply] ++ noticeClasses.map .notice

/-- No record's release is pending, and a record that owes a result has one. -/
structure Unpending (c : Controller) : Prop where
  distinct : c.SlotsDistinct
  pending : ∀ r ∈ c.records, r.releasePending = false
  result : ∀ r ∈ c.records, r.resultOwed = true → r.lastResult ≠ none

theorem Unpending.of_records (h : Unpending c) (same : d.records = c.records) : Unpending d :=
  ⟨by rw [Controller.SlotsDistinct, same]; exact h.distinct, by rw [same]; exact h.pending, by rw [same]; exact h.result⟩

theorem Unpending.updRecord (h : Unpending c) (slot : Nat) {f : Record → Record}
    (keeps : ∀ r, (f r).slot = r.slot ∧ (f r).releasePending = r.releasePending ∧ (f r).lastResult = r.lastResult ∧
      ((f r).resultOwed = true → r.resultOwed = true)) : Unpending (c.updRecord slot f) := by
  refine ⟨?_, fun x member => ?_, fun x member => ?_⟩
  · rw [Controller.SlotsDistinct, map_updRecord c slot f Record.slot fun r => (keeps r).1]
    exact h.distinct
  all_goals
    obtain ⟨r, here, rfl⟩ := List.mem_map.mp member
    obtain ⟨-, pending, result, owed⟩ := keeps r
    split
  · rw [pending]
    exact h.pending r here
  · exact h.pending r here
  · rw [result]
    exact fun owes => h.result r here (owed owes)
  · exact h.result r here

/-! ### The jackets' commands -/

theorem urgent_command (n : JacketNo) (k : Command) : (Body.command n k).urgent = (k == .vent) := by cases k <;> rfl

theorem owes_command (c : Controller) {n : JacketNo} {k : Command} (owed : (c.jacket n).owedCommand = some k) (vent : Bool) :
    c.owes (.command vent n) = if (k == .vent) = vent then [.command n k] else [] := by
  rw [Controller.owes, owed]
  by_cases same : (k == Command.vent) = vent <;> simp [same]

theorem offerOwedCommand_cases (c : Controller) (vent : Bool) (n : JacketNo) :
    (c.offerOwedCommand vent n = c ∧ c.owes (.command vent n) = []) ∨
      ∃ k, (c.jacket n).owedCommand = some k ∧ c.owes (.command vent n) = [.command n k] ∧ c.offerOwedCommand vent n = c.offerCommand n k := by
  unfold Controller.offerOwedCommand
  rcases owed : (c.jacket n).owedCommand with _ | k
  · exact .inl ⟨rfl, by rw [Controller.owes, owed]; rfl⟩
  · have owes := owes_command c owed vent
    rw [← urgent_command n] at owes
    by_cases same : (Body.command n k).urgent = vent
    · rw [if_pos same] at owes
      exact .inr ⟨k, rfl, owes, if_pos same⟩
    · rw [if_neg same] at owes
      exact .inl ⟨if_neg same, owes⟩

theorem offerCommand_offered (c : Controller) (n : JacketNo) (k : Command) : Offered [.command n k] c (c.offerCommand n k) := by
  unfold Controller.offerCommand
  split
  · exact offered_placed rfl rfl rfl rfl rfl
  · next room => exact offered_refused room rfl rfl rfl rfl

/-! ### The infeed mark's frame -/

theorem order_iff (v : MarkValue) (o : InfeedOrder) : v = (if o = .hold then .held else .released) ↔ o = v.order := by
  cases v <;> cases o <;> decide

theorem owes_infeed (c : Controller) (o : InfeedOrder) :
    c.owes (.infeed o) = if c.mark.owed.map OwedInfeed.order = some o ∧ o = c.mark.value.order then [.infeed o] else [] :=
  if_congr (and_congr_right fun _ => order_iff c.mark.value o) rfl rfl

theorem offerOwedInfeed_cases (c : Controller) (o : InfeedOrder) :
    (c.owes (.infeed o) = [] ∧ (c.offerOwedInfeed o = c ∨ (∃ w, c.mark.owed = some w ∧ w.order = o) ∧
        c.offerOwedInfeed o = c.setMark { c.mark with owed := none })) ∨
      (∃ w, c.mark.owed = some w ∧ w.order = o) ∧ c.owes (.infeed o) = [.infeed o] ∧
        c.offerOwedInfeed o = if c.hasRoom (.infeed o) then
          ((c.enqueue (.infeed o) .infeed).setMark { c.mark with owed := none }).judge false else c := by
  rw [owes_infeed]
  unfold Controller.offerOwedInfeed
  rcases owed : c.mark.owed with _ | w
  · exact .inl ⟨if_neg (by simp), .inl rfl⟩
  · by_cases order : w.order = o
    · by_cases value : o = c.mark.value.order
      · refine .inr ⟨⟨w, rfl, order⟩, if_pos ⟨congrArg some order, value⟩, ?_⟩
        by_cases full : Config.queueCapacity ≤ c.ring.queue.length
        · have room : ¬c.hasRoom (.infeed o) = true := fun room => absurd ((hasRoom_iff c _).mp room).2.1 (Nat.not_lt.mpr full)
          exact (if_pos (.inr full)).trans (if_neg room).symm
        · exact (if_neg (not_or.mpr ⟨not_not.mpr order, full⟩)).trans (if_neg (not_not.mpr value))
      · refine .inl ⟨if_neg fun h => value h.2, ?_⟩
        by_cases full : Config.queueCapacity ≤ c.ring.queue.length
        · exact .inl (if_pos (.inr full))
        · exact .inr ⟨⟨w, rfl, order⟩, (if_neg (not_or.mpr ⟨not_not.mpr order, full⟩)).trans (if_pos value)⟩
    · exact .inl ⟨if_neg fun h => order (Option.some.inj h.1), .inl (if_pos (.inl order))⟩

theorem offerOwedInfeed_offered (c : Controller) (o : InfeedOrder) : Offered (c.owes (.infeed o)) c (c.offerOwedInfeed o) := by
  rcases offerOwedInfeed_cases c o with ⟨owes, same | ⟨-, cleared⟩⟩ | ⟨-, owes, made⟩
  · rw [owes, same]
    exact offered_none rfl rfl rfl rfl fun _ _ _ => rfl
  · rw [owes, cleared]
    exact offered_none rfl rfl rfl rfl fun _ _ _ => rfl
  · rw [owes, made]
    split
    · exact offered_placed rfl rfl rfl rfl rfl
    · next room => exact offered_refused room rfl rfl rfl rfl

/-! ### A record's frames -/

theorem offerOrders_offered (slot : Nat) (serial : Serial) (l : List Order) (c : Controller) :
    Offered (l.map (Order.body serial)) c (c.offerOrders slot serial l) := by
  induction l generalizing c with
  | nil => exact offered_none rfl rfl rfl rfl fun _ _ _ => rfl
  | cons o rest ih =>
    unfold Controller.offerOrders
    split
    · have first : Offered [o.body serial] c
          (((c.updRecord slot fun r => { r with owedOrders := rest }).enqueue (o.body serial) (.record slot)).judge false) :=
        offered_placed rfl rfl rfl rfl (List.length_map _)
      exact first.trans (ih _) fun _ => rfl
    · next room => exact offered_refused room rfl rfl rfl rfl

theorem offerRecordWith_eq (h : Unpending c) (inner : Controller → Controller) {slot : Nat} {r : Record} (here : c.recordAt slot = some r) :
    (r.resultOwed = false ∧ Controller.offerRecordWith inner c slot = c.offerOrders slot r.serial r.owedOrders) ∨
      ∃ res, r.resultOwed = true ∧ r.lastResult = some res ∧ Controller.offerRecordWith inner c slot =
        if c.hasRoom (.testResult r.serial res) then (c.putResult slot r.serial res).offerOrders slot r.serial r.owedOrders else c := by
  unfold Controller.offerRecordWith
  rw [here]
  dsimp only
  cases owed : r.resultOwed with
  | false => exact .inl ⟨rfl, rfl⟩
  | true =>
    obtain ⟨res, last⟩ := Option.ne_none_iff_exists'.mp (h.result r (recordAt_mem here) owed)
    rw [last, h.pending r (recordAt_mem here)]
    exact .inr ⟨res, rfl, rfl, rfl⟩

theorem putResult_offered (c : Controller) (slot : Nat) (serial : Serial) (res : LastResult) :
    Offered [.testResult serial res] c (c.putResult slot serial res) :=
  offered_placed rfl rfl rfl rfl (List.length_map _)

theorem offerRecordWith_offered (h : Unpending c) (inner : Controller → Controller) (slot : Nat) :
    Offered (c.owes (.record slot)) c (Controller.offerRecordWith inner c slot) := by
  rcases here : c.recordAt slot with _ | r
  · rw [Controller.owes, here, Controller.offerRecordWith, here]
    exact offered_none rfl rfl rfl rfl fun _ _ _ => rfl
  · rw [Controller.owes, here, Option.elim_some, Record.owes]
    rcases offerRecordWith_eq h inner here with ⟨free, made⟩ | ⟨res, owed, last, made⟩
    · rw [made, free]
      exact offerOrders_offered slot r.serial r.owedOrders c
    · rw [made, owed, last, if_pos rfl]
      split
      · exact (putResult_offered c slot r.serial res).trans (offerOrders_offered slot r.serial r.owedOrders _) fun _ => rfl
      · next room => exact offered_refused room rfl rfl rfl rfl

/-! ### The reply and the notices -/

theorem offerReply_offered (c : Controller) : Offered (c.owes .reply) c c.offerReply := by
  rw [Controller.owes]
  unfold Controller.offerReply
  rcases buffer : c.responder.buffer with _ | _ | r
  · exact offered_none rfl rfl rfl rfl fun _ _ _ => rfl
  · exact offered_none rfl rfl rfl rfl fun _ _ _ => rfl
  · dsimp only [ReplyBuffer.owes]
    split
    · exact offered_placed rfl rfl rfl rfl rfl
    · next room => exact offered_refused room rfl rfl rfl rfl

theorem offerable_iff (c : Controller) (cls : NoticeClass) : c.offerable cls = true ↔
    (c.notice cls).pending = true ∧ (c.notice cls).enable = true ∧ Role.master ∈ c.tables.stations.toList := by
  rw [Controller.offerable, Bool.and_eq_true, Bool.and_eq_true, nodeWhere?_master, and_assoc, Vector.mem_toList_iff,
    Vector.mem_iff_getElem]
  exact and_congr_right fun _ => and_congr_right fun _ => ⟨fun ⟨i, here⟩ => ⟨i, i.isLt, here⟩, fun ⟨i, small, here⟩ => ⟨⟨i, small⟩, here⟩⟩

theorem offerNotice_offered (c : Controller) (cls : NoticeClass) : Offered (c.owes (.notice cls)) c (c.offerNotice cls) := by
  rw [Controller.owes]
  unfold Controller.offerNotice Controller.noticePlaceable
  by_cases offerable : c.offerable cls = true
  · rw [if_pos ((offerable_iff c cls).mp offerable), offerable, Bool.true_and]
    split
    · exact offered_placed rfl rfl rfl rfl rfl
    · next room => exact offered_refused room rfl rfl rfl rfl
  · rw [if_neg fun h => offerable ((offerable_iff c cls).mpr h), Bool.eq_false_iff.mpr offerable]
    exact offered_none rfl rfl rfl rfl fun _ _ _ => rfl

theorem offerItem_offered (h : Unpending c) (inner : Controller → Controller) (i : OwedItem) :
    Offered (c.owes i) c (c.offerItem inner i) := by
  cases i with
  | command vent n =>
    rcases offerOwedCommand_cases c vent n with ⟨same, owes⟩ | ⟨k, -, owes, made⟩
    · rw [Controller.offerItem, same, owes]
      exact offered_none rfl rfl rfl rfl fun _ _ _ => rfl
    · rw [Controller.offerItem, made, owes]
      exact offerCommand_offered c n k
  | infeed o => exact offerOwedInfeed_offered c o
  | record slot => exact offerRecordWith_offered h inner slot
  | reply => exact offerReply_offered c
  | notice cls => exact offerNotice_offered c cls

end Sys2Proof.Machine
end

section
/-! SUPPORT. The owed arbitration places what is owed in its order (O43, R8). -/
namespace Sys2Proof.Machine

variable {c d e : Controller}

/-! ### A step leaves what the other steps offer -/

theorem owes_notice_congr {cls : NoticeClass} (notice : d.notice cls = c.notice cls) (tables : d.tables = c.tables) :
    d.owes (.notice cls) = c.owes (.notice cls) := by
  rw [Controller.owes, Controller.owes, notice]
  exact if_congr (by rw [tables]) rfl rfl

/-- A frame placed under a mark that stands: its judgment leaves what is owed. -/
theorem owes_of_placed {b : Body} {p : QueueEntry} {i : OwedItem} (quiet : Quiet c [b]) (line : d.line = c.line)
    (queue : d.ring.queue = c.ring.queue ++ [p]) (value : d.mark.value = c.mark.value) (count : d.records.length = c.records.length)
    (same : d.owes i = c.owes i) : (d.judge false).owes i = c.owes i := by
  rw [judge_calm (calm_of_placed quiet line queue value count), ← same]
  cases i <;> rfl

/-- What the other records, the jackets, the infeed mark, the reply buffer and the notices owe is the same. -/
structure OtherSlots (slot : Nat) (c d : Controller) : Prop where
  jackets : d.jackets = c.jackets
  tables : d.tables = c.tables
  buffer : d.responder.buffer = c.responder.buffer
  notices : d.notices = c.notices
  owed : d.mark.owed = c.mark.owed
  value : d.mark.value = c.mark.value
  others : ∀ s, s ≠ slot → d.recordAt s = c.recordAt s

theorem OtherSlots.trans {slot : Nat} (h : OtherSlots slot c d) (k : OtherSlots slot d e) : OtherSlots slot c e :=
  ⟨k.jackets.trans h.jackets, k.tables.trans h.tables, k.buffer.trans h.buffer, k.notices.trans h.notices, k.owed.trans h.owed,
    k.value.trans h.value, fun s other => (k.others s other).trans (h.others s other)⟩

theorem OtherSlots.owes {slot : Nat} (h : OtherSlots slot c d) {i : OwedItem} (other : i ≠ .record slot) : d.owes i = c.owes i := by
  cases i with
  | command vent n => simp only [Controller.owes, jacket_congr h.jackets]
  | infeed o => simp only [Controller.owes, h.owed, h.value]
  | record s =>
    rw [Controller.owes, h.others s fun same => other (by rw [same]), Controller.owes]
  | reply => simp only [Controller.owes, h.buffer]
  | notice cls => exact owes_notice_congr (by rw [Controller.notice, h.notices, Controller.notice]) h.tables

theorem recordAt_updRecord_other (c : Controller) {slot s : Nat} (other : s ≠ slot) {f : Record → Record} (keeps : ∀ r, (f r).slot = r.slot) :
    (c.updRecord slot f).recordAt s = c.recordAt s := by
  show (c.records.map fun r => if r.slot = slot then f r else r).find? _ = c.records.find? _
  induction c.records with
  | nil => rfl
  | cons r l ih =>
    by_cases here : r.slot = slot
    · have apart : ¬slot = s := fun same => other same.symm
      simpa [here, keeps, apart] using ih
    · by_cases there : r.slot = s
      · simp [there, other]
      · simpa [here, there] using ih

/-- A frame of a record placed under a mark that stands leaves what the others owe. -/
theorem placeRecord_otherSlots {slot : Nat} {f : Record → Record} (keeps : ∀ r, (f r).slot = r.slot) {b : Body}
    (quiet : Quiet c [b]) {x : Controller} (made : x = (c.enqueue b (.record slot)).updRecord slot f) : OtherSlots slot c (x.judge false) := by
  have calm : x.Calm := by
    rw [made]
    exact calm_of_placed quiet rfl rfl rfl (List.length_map _)
  rw [judge_calm calm, made]
  exact ⟨rfl, rfl, rfl, rfl, rfl, rfl, fun s other => recordAt_updRecord_other (c.enqueue b (.record slot)) other keeps⟩

theorem Quiet.head {b : Body} {rest : List Body} (quiet : Quiet c (b :: rest)) : Quiet c [b] :=
  ⟨quiet.1, quiet.2.imp id fun short => by
    simp only [List.length_cons, List.length_nil] at short ⊢
    omega⟩

/-- Behind the first frame offered the rest is offered to a queue that grew by it. -/
theorem Quiet.tail {b : Body} {rest : List Body} (quiet : Quiet c (b :: rest)) (h : Offered [b] c d) : Quiet d rest := by
  obtain ⟨placed, queue, chosen⟩ := h.queue
  refine ⟨h.calm quiet.head, ?_⟩
  rw [h.line, queue, List.length_append]
  refine quiet.2.imp id fun short => ?_
  have few := (chosen quiet.head).1.length_le
  simp only [List.length_cons, List.length_nil, List.length_map] at short few
  omega

theorem offerOrders_otherSlots (slot : Nat) (serial : Serial) (l : List Order) (c : Controller) (quiet : Quiet c (l.map (Order.body serial))) :
    OtherSlots slot c (c.offerOrders slot serial l) := by
  induction l generalizing c with
  | nil => exact ⟨rfl, rfl, rfl, rfl, rfl, rfl, fun _ _ => rfl⟩
  | cons o rest ih =>
    unfold Controller.offerOrders
    split
    · have first : Offered [o.body serial] c
          (((c.updRecord slot fun r => { r with owedOrders := rest }).enqueue (o.body serial) (.record slot)).judge false) :=
        offered_placed rfl rfl rfl rfl (List.length_map _)
      exact (placeRecord_otherSlots (f := fun r => { r with owedOrders := rest }) (fun _ => rfl) quiet.head rfl).trans
        (ih _ (quiet.tail first))
    · exact ⟨rfl, rfl, rfl, rfl, rfl, rfl, fun _ _ => rfl⟩

theorem offerRecordWith_otherSlots (h : Unpending c) (inner : Controller → Controller) (slot : Nat) (quiet : Quiet c (c.owes (.record slot))) :
    OtherSlots slot c (Controller.offerRecordWith inner c slot) := by
  rcases here : c.recordAt slot with _ | r
  · rw [Controller.offerRecordWith, here]
    exact ⟨rfl, rfl, rfl, rfl, rfl, rfl, fun _ _ => rfl⟩
  · rw [Controller.owes, here, Option.elim_some, Record.owes] at quiet
    rcases offerRecordWith_eq h inner here with ⟨free, made⟩ | ⟨res, owed, last, made⟩
    · rw [free] at quiet
      rw [made]
      exact offerOrders_otherSlots slot r.serial r.owedOrders c quiet
    · rw [owed, last, if_pos rfl] at quiet
      rw [made]
      split
      · exact (placeRecord_otherSlots (f := fun r => { r with resultOwed := false }) (fun _ => rfl) (Quiet.head quiet) rfl).trans
          (offerOrders_otherSlots slot r.serial r.owedOrders _ (Quiet.tail quiet (putResult_offered c slot r.serial res)))
      · exact ⟨rfl, rfl, rfl, rfl, rfl, rfl, fun _ _ => rfl⟩

/-- Only the owed command of jacket n changed, and it is as much of one class as it was: what an offered command leaves (R94). -/
theorem offerCommand_owes {n : JacketNo} {k : Command} (owed : (c.jacket n).owedCommand = some k) (quiet : Quiet c [.command n k])
    {i : OwedItem} (other : i ≠ .command (k == .vent) n) : (c.offerCommand n k).owes i = c.owes i := by
  have command (vent : Bool) (m : JacketNo) (apart : .command vent m ≠ (OwedItem.command (k == .vent) n)) {x : Controller}
      (jackets : ∀ m, m ≠ n → x.jacket m = c.jacket m)
      (own : (x.jacket n).owedCommand = none ∨ (x.jacket n).owedCommand = some k) : x.owes (.command vent m) = c.owes (.command vent m) := by
    by_cases same : m = n
    · subst same
      have differs : ¬(k == Command.vent) = vent := fun same => apart (by rw [same])
      rw [owes_command c owed, if_neg differs]
      rcases own with none | own
      · rw [Controller.owes, none]
        rfl
      · rw [owes_command x own, if_neg differs]
    · simp only [Controller.owes, jackets m same]
  unfold Controller.offerCommand
  split
  · refine owes_of_placed quiet rfl rfl rfl rfl ?_
    cases i with
    | command vent m =>
      have at_ (m : JacketNo) := jacket_updJacket (c.enqueue (.command n k) (.jacket n)) n m fun j => { j with owedCommand := none }
      exact command vent m other (fun m apart => (at_ m).trans (if_neg apart)) (.inl (by
        show (((c.enqueue _ _).updJacket n _).jacket n).owedCommand = none
        rw [at_ n, if_pos rfl]))
    | _ => rfl
  · cases i with
    | command vent m =>
      have at_ (m : JacketNo) := jacket_updJacket c n m fun j => { j with owedCommand := some k }
      exact command vent m other (fun m apart => (at_ m).trans (if_neg apart)) (.inr (by rw [at_ n, if_pos rfl]))
    | _ => rfl

theorem offerOwedInfeed_owes {o : InfeedOrder} (quiet : Quiet c (c.owes (.infeed o))) {i : OwedItem} (other : i ≠ .infeed o) :
    (c.offerOwedInfeed o).owes i = c.owes i := by
  have cleared {x : Controller} (jackets : x.jackets = c.jackets) (tables : x.tables = c.tables) (records : x.records = c.records)
      (buffer : x.responder.buffer = c.responder.buffer) (notices : x.notices = c.notices) (none : x.mark.owed = none)
      (was : ∃ w, c.mark.owed = some w ∧ w.order = o) : x.owes i = c.owes i := by
    cases i with
    | command vent n => simp only [Controller.owes, jacket_congr jackets]
    | infeed o' =>
      obtain ⟨w, owed, rfl⟩ := was
      have apart : ¬w.order = o' := fun same => other (by rw [same])
      simp [Controller.owes, none, owed, apart]
    | record s => simp only [Controller.owes, Controller.recordAt, records]
    | reply => simp only [Controller.owes, buffer]
    | notice cls => exact owes_notice_congr (by rw [Controller.notice, notices, Controller.notice]) tables
  rcases offerOwedInfeed_cases c o with ⟨-, same | ⟨was, clears⟩⟩ | ⟨was, owes, made⟩
  · rw [same]
  · rw [clears]
    exact cleared rfl rfl rfl rfl rfl rfl was
  · rw [owes] at quiet
    rw [made]
    split
    · refine owes_of_placed quiet rfl rfl rfl rfl ?_
      exact cleared rfl rfl rfl rfl rfl rfl was
    · rfl

theorem offerReply_owes (quiet : Quiet c (c.owes .reply)) {i : OwedItem} (other : i ≠ .reply) : c.offerReply.owes i = c.owes i := by
  unfold Controller.offerReply
  rcases buffer : c.responder.buffer with _ | _ | r
  · rfl
  · rfl
  · rw [Controller.owes, buffer] at quiet
    dsimp only
    split
    · refine owes_of_placed (b := .reply r) quiet rfl rfl rfl rfl ?_
      cases i with
      | reply => exact absurd rfl other
      | _ => rfl
    · rfl

theorem offerNotice_owes {cls : NoticeClass} (quiet : Quiet c (c.owes (.notice cls))) {i : OwedItem} (other : i ≠ .notice cls) :
    (c.offerNotice cls).owes i = c.owes i := by
  unfold Controller.offerNotice
  split
  · next placeable =>
    have offerable : c.offerable cls = true := (Bool.and_eq_true_iff.mp placeable).1
    rw [Controller.owes, if_pos ((offerable_iff c cls).mp offerable)] at quiet
    refine owes_of_placed (d := c.putNotice cls) quiet rfl rfl rfl rfl ?_
    cases i with
    | notice k =>
      have apart : k ≠ cls := fun same => other (by rw [same])
      exact owes_notice_congr ((notice_putNotice c cls k).trans (if_neg apart)) rfl
    | _ => rfl
  · rfl

/-- A step of the arbitration leaves what every other step offers. -/
theorem offerItem_owes (h : Unpending c) (inner : Controller → Controller) {i j : OwedItem} (quiet : Quiet c (c.owes i)) (other : j ≠ i) :
    (c.offerItem inner i).owes j = c.owes j := by
  cases i with
  | command vent n =>
    rcases offerOwedCommand_cases c vent n with ⟨same, -⟩ | ⟨k, owed, owes, made⟩
    · rw [Controller.offerItem, same]
    · have of_class : (k == Command.vent) = vent := by
        rw [owes_command c owed] at owes
        exact Decidable.byContradiction fun differs => by
          rw [if_neg differs] at owes
          cases owes
      rw [owes] at quiet
      rw [Controller.offerItem, made]
      exact offerCommand_owes owed quiet (by rw [of_class]; exact other)
  | infeed o => exact offerOwedInfeed_owes quiet other
  | record slot => exact (offerRecordWith_otherSlots h inner slot quiet).owes other
  | reply => exact offerReply_owes quiet other
  | notice cls => exact offerNotice_owes quiet other

/-! ### The arbitration -/

theorem offerOrders_unpending (slot : Nat) (serial : Serial) (l : List Order) (c : Controller) (h : Unpending c) :
    Unpending (c.offerOrders slot serial l) ∧ (c.offerOrders slot serial l).records.map Record.slot = c.records.map Record.slot := by
  induction l generalizing c with
  | nil => exact ⟨h, rfl⟩
  | cons o rest ih =>
    unfold Controller.offerOrders
    split
    · have records : (((c.updRecord slot fun r => { r with owedOrders := rest }).enqueue (o.body serial) (.record slot)).judge false).records =
        (c.updRecord slot fun r => { r with owedOrders := rest }).records := (judge_onlyPlaces false _).records
      obtain ⟨unpending, slots⟩ := ih _ ((h.updRecord slot (f := fun r => { r with owedOrders := rest })
        fun _ => ⟨rfl, rfl, rfl, id⟩).of_records records)
      refine ⟨unpending, slots.trans ?_⟩
      rw [records]
      exact map_updRecord c slot _ Record.slot fun _ => rfl
    · exact ⟨h, rfl⟩

theorem offerItem_unpending (h : Unpending c) (inner : Controller → Controller) (i : OwedItem) :
    Unpending (c.offerItem inner i) ∧ (c.offerItem inner i).records.map Record.slot = c.records.map Record.slot := by
  have same {x : Controller} (records : x.records = c.records) : Unpending x ∧ x.records.map Record.slot = c.records.map Record.slot :=
    ⟨h.of_records records, by rw [records]⟩
  cases i with
  | command vent n =>
    rcases offerOwedCommand_cases c vent n with ⟨unchanged, -⟩ | ⟨k, -, -, made⟩
    · exact same (congrArg Controller.records unchanged)
    · refine same ((congrArg Controller.records made).trans ?_)
      unfold Controller.offerCommand
      split
      · exact (judge_onlyPlaces false _).records
      · rfl
  | infeed o => exact same (offerOwedInfeed_onlyPlaces c o).records
  | record slot =>
    show Unpending (Controller.offerRecordWith inner c slot) ∧ (Controller.offerRecordWith inner c slot).records.map Record.slot = _
    rcases here : c.recordAt slot with _ | r
    · rw [Controller.offerRecordWith, here]
      exact same rfl
    · rcases offerRecordWith_eq h inner here with ⟨-, made⟩ | ⟨res, -, -, made⟩
      · rw [made]
        exact offerOrders_unpending slot r.serial r.owedOrders c h
      · rw [made]
        split
        · have records : (c.putResult slot r.serial res).records = (c.updRecord slot fun r => { r with resultOwed := false }).records :=
            (judge_onlyPlaces false _).records
          obtain ⟨unpending, slots⟩ := offerOrders_unpending slot r.serial r.owedOrders (c.putResult slot r.serial res)
            ((h.updRecord slot (f := fun r => { r with resultOwed := false }) fun _ => ⟨rfl, rfl, rfl, nofun⟩).of_records records)
          refine ⟨unpending, slots.trans ?_⟩
          rw [records]
          exact map_updRecord c slot _ Record.slot fun _ => rfl
        · exact same rfl
  | reply => exact same (offerReply_onlyPlaces c).records
  | notice cls => exact same (offerNotice_onlyPlaces c cls).records

theorem items_offered (inner : Controller → Controller) (l : List OwedItem) (distinct : l.Nodup) (c : Controller) (h : Unpending c) :
    Offered (l.flatMap c.owes) c (l.foldl (Controller.offerItem inner) c) := by
  induction l generalizing c with
  | nil => exact offered_none rfl rfl rfl rfl fun _ _ _ => rfl
  | cons i l ih =>
    obtain ⟨fresh, distinct⟩ := List.nodup_cons.mp distinct
    refine (offerItem_offered h inner i).trans (ih distinct _ (offerItem_unpending h inner i).1) fun quiet => ?_
    exact List.flatMap_congr fun j member => offerItem_owes h inner quiet fun same => fresh (same ▸ member)

theorem items_slots (inner : Controller → Controller) (l : List OwedItem) (c : Controller) (h : Unpending c) :
    (l.foldl (Controller.offerItem inner) c).records.map Record.slot = c.records.map Record.slot := by
  induction l generalizing c with
  | nil => rfl
  | cons i l ih =>
    obtain ⟨unpending, slots⟩ := offerItem_unpending h inner i
    exact (ih _ unpending).trans slots

theorem arbitrateWith_items (h : Unpending c) (inner : Controller → Controller) :
    Controller.arbitrateWith inner c = c.owedItems.foldl (Controller.offerItem inner) c := by
  have slots := items_slots inner (jacketNumbers.map (.command true) ++ [.infeed .hold]) c h
  simp only [List.foldl_append, List.foldl_map, List.foldl_cons, List.foldl_nil] at slots
  have records : c.records.map (fun r => OwedItem.record r.slot) = (c.records.map Record.slot).map .record := (List.map_map ..).symm
  unfold Controller.arbitrateWith Controller.owedItems Controller.offerNotices
  rw [records, ← slots]
  simp only [List.foldl_append, List.foldl_map, List.foldl_cons, List.foldl_nil]
  rfl

theorem owedItems_nodup (h : c.SlotsDistinct) : c.owedItems.Nodup := by
  have records : (c.records.map fun r => OwedItem.record r.slot).Nodup := by
    have := List.Nodup.map (f := OwedItem.record) (fun _ _ same => OwedItem.record.inj same) h
    rwa [List.map_map] at this
  unfold Controller.owedItems
  have before : (jacketNumbers.map (OwedItem.command true) ++ [OwedItem.infeed .hold]).Nodup := by decide
  have after : (jacketNumbers.map (OwedItem.command false) ++ ([OwedItem.infeed .release] ++ ([OwedItem.reply] ++
    noticeClasses.map OwedItem.notice))).Nodup := by decide
  simp only [List.append_assoc] at before ⊢
  rw [← List.append_assoc]
  refine List.nodup_append'.mpr ⟨before, List.nodup_append'.mpr ⟨records, after, ?_⟩, ?_⟩
  · intro i member
    obtain ⟨r, -, rfl⟩ := List.mem_map.mp member
    simp
  · intro i member
    simp only [List.mem_append, List.mem_map, List.mem_cons] at member ⊢
    rcases member with ⟨n, -, rfl⟩ | rfl | h
    · simp
    · simp
    · cases h

/-- What the records owe, each with its own slot (R8). -/
theorem owes_records (h : c.SlotsDistinct) : (c.records.map fun r => OwedItem.record r.slot).flatMap c.owes = c.records.flatMap Record.owes := by
  rw [List.flatMap_map]
  refine List.flatMap_congr fun r member => ?_
  rw [Controller.owes, recordAt_of_mem h member, Option.elim_some]

/-- The owed arbitration offers what is owed, in its order, while no release is pending (R8). -/
theorem arbitrate_offered (h : Unpending c) : Offered (c.owedItems.flatMap c.owes) c c.arbitrate := by
  show Offered _ c (Controller.arbitrateWith (Controller.arbitrateDepth c.records.length) c)
  rw [arbitrateWith_items h]
  exact items_offered _ _ (owedItems_nodup h.distinct) c h

/-! ### A raise (R178, R179) -/

theorem raise_pending {cls : NoticeClass} {subject cause : Nat}
    (unplaceable : ¬(c.markRaise cls subject cause false).noticePlaceable cls = true) :
    c.raise cls subject cause = c.markRaise cls subject cause false := if_neg unplaceable

theorem raised_placeable (c : Controller) (cls : NoticeClass) (subject cause : Nat) :
    (c.markRaise cls subject cause false).noticePlaceable cls = true ↔ (c.notice cls).enable = true ∧
      (∃ i : Fin 64, c.tables.stations.get i = .master) ∧
      c.hasRoom (.notice cls (min 255 ((c.notice cls).count + 1)) subject cause) = true := by
  rw [noticePlaceable_iff, Controller.noticeBody, notice_markRaise]
  exact ⟨And.right, fun h => ⟨rfl, h⟩⟩

theorem raise_placed {cls : NoticeClass} {subject cause : Nat} (placeable : (c.markRaise cls subject cause false).noticePlaceable cls = true)
    (other : cls ≠ .infeedHeld) :
    (c.raise cls subject cause).notice cls = {
        pending := false, enable := (c.notice cls).enable && !cls.oneShot, count := 0, subject := 0, cause := 0, testMark := false } ∧
      c.ring.queue ++ [{
        destination := c.nodeWhere (· == .master), body := .notice cls (min 255 ((c.notice cls).count + 1)) subject cause,
        owner := .notice cls, clearedEnable := cls.oneShot, testMark := false }] <+: (c.raise cls subject cause).ring.queue := by
  have marked := notice_markRaise c cls subject cause false
  have made : c.raise cls subject cause = ((c.markRaise cls subject cause false).putNotice cls).judge false := if_pos placeable
  rw [made]
  refine ⟨?_, ?_⟩
  · rw [(judge_heldAlone false _).1 cls other, notice_putNotice, if_pos rfl, marked]
    simp
  · have queue : ((c.markRaise cls subject cause false).putNotice cls).ring.queue = c.ring.queue ++ [{
        destination := c.nodeWhere (· == .master), body := .notice cls (min 255 ((c.notice cls).count + 1)) subject cause,
        owner := .notice cls, clearedEnable := cls.oneShot, testMark := false }] := by
      show c.ring.queue ++ [_] = _
      simp only [Controller.noticeBody, marked, Bool.not_false, Bool.and_true]
      rfl
    rw [← queue]
    exact (judge_onlyPlaces false _).queue

/-- Settles O43: the arbitration's steps each offer what they owe and leave what the others owe. -/
theorem noticesRaised : Obligations.NoticesRaised := by
  refine ⟨hasRoom_iff, fun b => ⟨?_, ?_⟩, fun c sound judged pending result => ?_, fun c cls subject cause => ⟨fun why => ?_,
    fun enable mapped room other => ?_⟩⟩
  · rcases b with (_ | _) | _ | ⟨n, (_ | _ | _)⟩ | _ | _ | _ | _ | _ <;> simp [Body.urgent]
  · rcases b with (_ | _) | _ | ⟨n, (_ | _ | _)⟩ | _ | _ | _ | cls | _ <;> try simp [Body.holdSet]
    cases cls <;> simp [NoticeClass.holdCritical]
  · have unpending : Unpending c := ⟨sound.2.2.1, pending, result⟩
    intro jackets infeed records reply notices owed
    have all : c.owedItems.flatMap c.owes = owed := by
      have reply : c.responder.buffer.owes = reply := by
        show _ = (match c.responder.buffer with | .holding r => [Body.reply r] | _ => [])
        cases c.responder.buffer <;> rfl
      unfold Controller.owedItems
      simp only [List.flatMap_append, owes_records unpending.distinct, List.flatMap_cons, List.flatMap_nil, List.append_nil, List.flatMap_map]
      show _ = jackets true ++ infeed .hold ++ records ++ jackets false ++ infeed .release ++ _ ++ notices
      rw [← reply]
      rfl
    have offered := arbitrate_offered unpending
    rw [all] at offered
    obtain ⟨placed, queue, chosen⟩ := offered.queue
    exact ⟨placed, queue, fun moving short => (chosen ⟨judged.2, .inr short⟩).2 moving short, fun stands => (chosen ⟨judged.2, .inl stands⟩).1⟩
  · refine raise_pending fun placeable => ?_
    obtain ⟨enable, mapped, room⟩ := (raised_placeable c cls subject cause).mp placeable
    rcases why with off | unmapped | full
    · rw [off] at enable
      cases enable
    · exact unmapped mapped
    · exact absurd room (Bool.eq_false_iff.mp full)
  · have placed := raise_onlyPlaces c cls subject cause
    obtain ⟨notice, queue⟩ := raise_placed ((raised_placeable c cls subject cause).mpr ⟨enable, mapped, room⟩) other
    rw [enable, Bool.true_and] at notice
    exact ⟨notice, queue, placed.records, placed.jackets⟩

end Sys2Proof.Machine
end

section
/-! SUPPORT. The receiver and the frame layout (O7, R1) and the frames the part does not act on (O8, R2, R4, R18). -/
namespace Sys2Proof.Machine

variable {c : Controller}

/-! ### The frame layout (R1) -/

theorem wire_eq (f : Frame) : f.wire = f.header.destination :: f.header.source :: f.kind :: f.header.sequence ::
    BitVec.ofNat 8 f.payload.length :: (f.payload ++ (crcField (crc16 f.covered) ++ [f.header.trailer])) := by
  simp [Frame.wire, Frame.covered]

theorem crcField_length (x : BitVec 16) : (crcField x).length = 2 := rfl

/-- Bytes with a length field and enough bytes behind it: the checks of R1. -/
theorem checkFrame_cons (destination source kind sequence length high low trailer : Byte) (payload : List Byte)
    (size : payload.length = length.toNat) :
    checkFrame (destination :: source :: kind :: sequence :: length :: (payload ++ [high, low, trailer])) =
      if length.toNat ≤ 200 ∧ crcField (crc16 ([destination, source, kind, sequence, length] ++ payload)) = [high, low] then
        some { header := { destination, source, sequence, trailer }, kind, payload } else none := by
  unfold checkFrame
  simp only [← size, List.take_left, List.drop_left]
  exact if_congr ⟨fun h => ⟨h.1, h.2.2⟩, fun h => ⟨h.1, trivial, h.2⟩⟩ rfl rfl

/-- Settles O7: the checks of R1 hold of a frame's bytes on the wire and of no others. -/
theorem receiverReadsTheFrameLayout : Obligations.ReceiverReadsTheFrameLayout := by
  intro bytes f
  constructor
  · intro passes
    unfold checkFrame at passes
    split at passes
    · next destination source kind sequence length rest =>
      dsimp only at passes
      split at passes
      · next high low trailer tail =>
        split at passes
        · next checks =>
          obtain ⟨short, size, crc⟩ := checks
          cases passes
          have field : BitVec.ofNat 8 (rest.take length.toNat).length = length := by rw [size, BitVec.ofNat_toNat, BitVec.setWidth_eq]
          refine ⟨by rw [size]; exact short, ?_⟩
          rw [wire_eq, Frame.covered, field, crc]
          have whole := List.take_append_drop length.toNat rest
          rw [tail] at whole
          exact congrArg (fun l => destination :: source :: kind :: sequence :: length :: l) whole
        · cases passes
      · cases passes
    · cases passes
  · rintro ⟨short, rfl⟩
    have size : (BitVec.ofNat 8 f.payload.length : Byte).toNat = f.payload.length := by
      rw [BitVec.toNat_ofNat]
      omega
    rw [wire_eq]
    exact (checkFrame_cons _ _ _ _ _ _ _ _ _ size.symm).trans (if_pos ⟨by rw [size]; exact short, rfl⟩)

/-! ### Frames the part does not act on (R2, R4, R5) -/

/-- The kinds read from a source of this role (R5). -/
def Role.Reports (role : Role) (kind : Nat) : Prop :=
  (role = .entry ∧ kind = 1) ∨ (role = .scale ∧ kind = 2) ∨ (role = .visual ∧ kind = 3) ∨ (role = .stamp ∧ kind = 7) ∨
    (role = .scrap ∧ kind = 8) ∨ ((∃ n size, role = .jacket n size) ∧ (kind = 4 ∨ kind = 5 ∨ kind = 6))

theorem jacketReport_unread {kind : Nat} (other : ¬(kind = 4 ∨ kind = 5 ∨ kind = 6)) (n : JacketNo) (payload : List Byte) :
    c.jacketReport n kind payload = c := by
  unfold Controller.jacketReport
  split
  · exact absurd (.inl rfl) other
  · exact absurd (.inr (.inl rfl)) other
  · exact absurd (.inr (.inr rfl)) other
  · rfl

/-- A frame that is no report of its source's role is not read (R5). -/
theorem classify_unread {source kind : Nat} (payload : List Byte) (other : ¬(c.roleAt source).Reports kind) : c.classify source kind payload = c := by
  unfold Controller.classify
  generalize c.roleAt source = role at other
  split
  · exact absurd (.inl ⟨rfl, rfl⟩) other
  · exact absurd (.inr (.inl ⟨rfl, rfl⟩)) other
  · exact absurd (.inr (.inr (.inl ⟨rfl, rfl⟩))) other
  · exact absurd (.inr (.inr (.inr (.inl ⟨rfl, rfl⟩)))) other
  · exact absurd (.inr (.inr (.inr (.inr (.inl ⟨rfl, rfl⟩))))) other
  · exact jacketReport_unread (fun reads => other (.inr (.inr (.inr (.inr (.inr ⟨⟨_, _, rfl⟩, reads⟩)))))) _ payload
  · rfl

theorem Role.Reports.kind {role : Role} {kind : Nat} (reports : role.Reports kind) : 1 ≤ kind ∧ kind ≤ 8 ∧ role ≠ .none := by
  rcases reports with ⟨rfl, rfl⟩ | ⟨rfl, rfl⟩ | ⟨rfl, rfl⟩ | ⟨rfl, rfl⟩ | ⟨rfl, rfl⟩ | ⟨⟨n, size, rfl⟩, h⟩ <;>
    exact ⟨by omega, by omega, nofun⟩

theorem isRequest_iff (c : Controller) (f : Frame) :
    c.isRequest f = true ↔ f.header.destination.toNat = c.ring.nodeAddress.toNat ∧ f.kind.toNat = 48 := by
  rw [Controller.isRequest, Bool.and_eq_true, beq_iff_eq, beq_iff_eq]
  rfl

theorem forwardRoom_iff (c : Controller) : c.forwardRoom = true ↔ c.ring.forward.length < 4 := decide_eq_true_iff

theorem receiveBytes_checked (inService : c.bypass = false) {bytes : List Byte} {f : Frame} (passes : checkFrame bytes = some f)
    (notOwn : f.header.source.toNat ≠ c.ring.nodeAddress.toNat) : c.receiveBytes bytes = c.passOn f := by
  rw [Controller.receiveBytes, inService, passes]
  exact if_neg notOwn

/-- Settles O8: the bytes are not a frame, or the frame is forwarded only. -/
theorem framesNotActedOn : Obligations.FramesNotActedOn := by
  refine ⟨fun bytes s inService why => ?_, fun bytes s room why => ?_, fun s h p hears destined occupied => ?_⟩
  · have same : s.part.receiveBytes bytes = s.part := by
      rcases why with fails | ⟨f, passes, notOwn, full⟩
      · rw [Controller.receiveBytes, inService, fails]
        rfl
      · have none : s.part.forwardRoom = false := by
          rw [Bool.eq_false_iff, Ne, forwardRoom_iff]
          omega
        rw [receiveBytes_checked inService passes notOwn, Controller.passOn, none]
        rfl
    exact congrArg (fun c => Host.Outcome.next (s.withPart c)) same
  · have room := (forwardRoom_iff s.part).mpr room
    have placed : s.part.receiveBytes bytes = s.part.placeForward bytes := by
      rcases why with bypass | ⟨inService, f, passes, notOwn, notRequest, unread⟩
      · rw [Controller.receiveBytes, bypass, if_pos rfl, Controller.bypassFrame, room]
        rfl
      · obtain ⟨-, rfl⟩ := (receiverReadsTheFrameLayout bytes f).mp passes
        have plain : ¬s.part.isRequest f = true := fun request =>
          have ⟨here, manage⟩ := (isRequest_iff s.part f).mp request
          notRequest manage here
        rw [receiveBytes_checked inService passes notOwn, Controller.passOn, room, if_neg (by decide), if_neg plain]
        refine classify_unread f.payload fun reports => ?_
        obtain ⟨low, high, role⟩ := reports.kind
        exact role (unread low high)
    exact congrArg (fun c => Host.Outcome.next (s.withPart c)) placed
  · obtain ⟨inService, short, notOwn, room⟩ := hears
    have request : s.part.isRequest (manageFrame h p) = true := (isRequest_iff s.part _).mpr ⟨destined, rfl⟩
    have forwarded : s.part.receiveFrame (manageFrame h p) = s.part.placeForward (manageFrame h p).wire := by
      rw [Controller.receiveFrame, inService, if_neg (by decide), if_neg (show ¬Config.maxPayload < (manageFrame h p).payload.length from Nat.not_lt.mpr short),
        Controller.accept, if_neg (show ¬(manageFrame h p).header.source.toNat = _ from notOwn), Controller.passOn, room, if_neg (by decide),
        if_pos request, if_neg occupied]
    exact congrArg (fun c => Host.Outcome.next (s.withPart c)) forwarded

end Sys2Proof.Machine
end

section
/-! SUPPORT. The reading of the station reports (R5, R55, R56), and the reports that are not taken (O19). -/
namespace Sys2Proof.Machine

variable {s : State} {h : Header} {p : List Byte} {c : Controller}

/-! ### What the classifier reads -/

/-- The part once a report's frame is placed in the forward buffer (R2). -/
def heard (c : Controller) (h : Header) (kind : Byte) (p : List Byte) : Controller :=
  c.placeForward ({ header := h, kind, payload := p } : Frame).wire

/-- A command that carries a report reads it (R5). -/
theorem exec_report {i : Instr} {kind : Byte} {d : Controller}
    (run : exec i s = .next (s.withPart (s.part.receiveFrame { header := h, kind, payload := p }))) (hears : s.part.Hears h p.length)
    (report : kind.toNat ≠ manageKind) (read : (heard s.part h kind p).classify h.source.toNat kind.toNat p = d) :
    exec i s = .next (s.withPart d) := by
  rw [run, receiveFrame_report hears report]
  exact congrArg (fun d => Host.Outcome.next (s.withPart d)) read

theorem classify_tag {source : Nat} (role : c.roleAt source = .entry) (p : List Byte) :
    c.classify source 1 p = (readEntryTag p).elim (c.malformed .entry (leadingSerial p)) c.takeTag := by
  unfold Controller.classify
  rw [role]
  cases readEntryTag p <;> rfl

theorem classify_mass {source : Nat} (role : c.roleAt source = .scale) (p : List Byte) :
    c.classify source 2 p = (readMass p).elim (c.malformed .scale (leadingSerial p)) fun r => c.takeMass r.1 r.2 := by
  unfold Controller.classify
  rw [role]
  cases readMass p <;> rfl

theorem classify_findings {source : Nat} (role : c.roleAt source = .visual) (p : List Byte) :
    c.classify source 3 p = (readFindings p).elim (c.malformed .visual (leadingSerial p)) fun r => c.takeFindings r.1 r.2 := by
  unfold Controller.classify
  rw [role]
  cases readFindings p <;> rfl

theorem classify_stamp {source : Nat} (role : c.roleAt source = .stamp) (p : List Byte) :
    c.classify source 7 p = (readStampReport p).elim (c.malformed .stamp (leadingSerial p)) fun r => c.takeStamp r.1 r.2.1 r.2.2 := by
  unfold Controller.classify
  rw [role]
  cases readStampReport p <;> rfl

theorem classify_scrap {source : Nat} (role : c.roleAt source = .scrap) (p : List Byte) :
    c.classify source 8 p = (readScrapReport p).elim (c.malformed .scrap (leadingSerial p)) fun r => c.takeScrap r.1 r.2 := by
  unfold Controller.classify
  rw [role]
  cases readScrapReport p <;> rfl

theorem classify_jacket {source : Nat} {n : JacketNo} {size : SizeClass} (role : c.roleAt source = .jacket n size) (kind : Nat) (p : List Byte) :
    c.classify source kind p = c.jacketReport n kind p := by
  unfold Controller.classify
  rw [role]

theorem jacketReport_arrival (n : JacketNo) (p : List Byte) :
    c.jacketReport n 4 p = (readSerial p).elim (c.malformed (strayJacket n) (leadingSerial p)) (c.takeArrival n) := by
  unfold Controller.jacketReport
  cases readSerial p <;> rfl

theorem jacketReport_sample (n : JacketNo) (p : List Byte) :
    c.jacketReport n 5 p = (readSample p).elim (c.malformed (strayJacket n) 0) (c.takeSample n) := by
  unfold Controller.jacketReport
  cases readSample p <;> rfl

theorem jacketReport_clear (n : JacketNo) (p : List Byte) :
    c.jacketReport n 6 p = (readSerial p).elim (c.malformed (strayJacket n) (leadingSerial p)) (c.takeClear n) := by
  unfold Controller.jacketReport
  cases readSerial p <;> rfl

/-! ### The commands of the reports -/

theorem exec_entryTag (hears : s.part.Hears h p.length) (role : s.part.roleAt h.source.toNat = .entry) :
    exec (.entryTag h p) s = .next (s.withPart
      ((readEntryTag p).elim ((heard s.part h 1 p).malformed .entry (leadingSerial p)) (heard s.part h 1 p).takeTag)) :=
  exec_report (kind := 1) rfl hears (by decide) (classify_tag (c := heard s.part h 1 p) role p)

theorem exec_massReading (hears : s.part.Hears h p.length) (role : s.part.roleAt h.source.toNat = .scale) :
    exec (.massReading h p) s = .next (s.withPart
      ((readMass p).elim ((heard s.part h 2 p).malformed .scale (leadingSerial p)) fun r => (heard s.part h 2 p).takeMass r.1 r.2)) :=
  exec_report (kind := 2) rfl hears (by decide) (classify_mass (c := heard s.part h 2 p) role p)

theorem exec_visualFindings (hears : s.part.Hears h p.length) (role : s.part.roleAt h.source.toNat = .visual) :
    exec (.visualFindings h p) s = .next (s.withPart
      ((readFindings p).elim ((heard s.part h 3 p).malformed .visual (leadingSerial p)) fun r => (heard s.part h 3 p).takeFindings r.1 r.2)) :=
  exec_report (kind := 3) rfl hears (by decide) (classify_findings (c := heard s.part h 3 p) role p)

theorem exec_stampReport (hears : s.part.Hears h p.length) (role : s.part.roleAt h.source.toNat = .stamp) :
    exec (.stampReport h p) s = .next (s.withPart
      ((readStampReport p).elim ((heard s.part h 7 p).malformed .stamp (leadingSerial p))
        fun r => (heard s.part h 7 p).takeStamp r.1 r.2.1 r.2.2)) :=
  exec_report (kind := 7) rfl hears (by decide) (classify_stamp (c := heard s.part h 7 p) role p)

theorem exec_scrapReport (hears : s.part.Hears h p.length) (role : s.part.roleAt h.source.toNat = .scrap) :
    exec (.scrapReport h p) s = .next (s.withPart
      ((readScrapReport p).elim ((heard s.part h 8 p).malformed .scrap (leadingSerial p)) fun r => (heard s.part h 8 p).takeScrap r.1 r.2)) :=
  exec_report (kind := 8) rfl hears (by decide) (classify_scrap (c := heard s.part h 8 p) role p)

section Jacket
variable {n : JacketNo} {size : SizeClass}

theorem exec_jacketArrival (hears : s.part.Hears h p.length) (role : s.part.roleAt h.source.toNat = .jacket n size) :
    exec (.jacketArrival h p) s = .next (s.withPart
      ((readSerial p).elim ((heard s.part h 4 p).malformed (strayJacket n) (leadingSerial p)) ((heard s.part h 4 p).takeArrival n))) :=
  exec_report (kind := 4) rfl hears (by decide)
    ((classify_jacket (c := heard s.part h 4 p) role 4 p).trans (jacketReport_arrival n p))

theorem exec_jacketSample_report (hears : s.part.Hears h p.length) (role : s.part.roleAt h.source.toNat = .jacket n size) :
    exec (.jacketSample h p) s = .next (s.withPart
      ((readSample p).elim ((heard s.part h 5 p).malformed (strayJacket n) 0) ((heard s.part h 5 p).takeSample n))) :=
  exec_report (kind := 5) rfl hears (by decide)
    ((classify_jacket (c := heard s.part h 5 p) role 5 p).trans (jacketReport_sample n p))

theorem exec_jacketClear (hears : s.part.Hears h p.length) (role : s.part.roleAt h.source.toNat = .jacket n size) :
    exec (.jacketClear h p) s = .next (s.withPart
      ((readSerial p).elim ((heard s.part h 6 p).malformed (strayJacket n) (leadingSerial p)) ((heard s.part h 6 p).takeClear n))) :=
  exec_report (kind := 6) rfl hears (by decide)
    ((classify_jacket (c := heard s.part h 6 p) role 6 p).trans (jacketReport_clear n p))

end Jacket

/-- A report of another role's kind is forwarded only (R5). -/
theorem exec_unread {i : Instr} {kind : Byte}
    (run : exec i s = .next (s.withPart (s.part.receiveFrame { header := h, kind, payload := p }))) (hears : s.part.Hears h p.length)
    (report : kind.toNat ≠ manageKind) (other : ¬(s.part.roleAt h.source.toNat).Reports kind.toNat) :
    exec i s = .next (s.withPart (heard s.part h kind p)) :=
  exec_report run hears report (classify_unread (c := heard s.part h kind p) p other)

/-! ### Stray reports (R56) -/

/-- A report dropped: STRAY_REPORT is raised with this detail, and the register, the jackets and the line stand (R56). -/
def Dropped (s : State) (i : Instr) (serial : Serial) (code cause : Nat) : Prop :=
  ∃ t : Controller, exec i s = .next (s.withPart t) ∧ t.records = s.part.records ∧ t.jackets = s.part.jackets ∧
    t.tables = s.part.tables ∧ t.verification = s.part.verification ∧ t.line = s.part.line ∧
    t.Reported .strayReport serial (code * 16 + cause)

theorem dropped_of {i : Instr} {kind : Byte} {role : Role} {serial : Serial} {cause : StrayCause}
    (run : exec i s = .next (s.withPart ((heard s.part h kind p).stray role serial cause))) :
    Dropped s i serial role.code cause.code :=
  have placed := raise_onlyPlaces (heard s.part h kind p) .strayReport serial (role.code * 16 + cause.code)
  ⟨_, run, placed.records, placed.jackets, placed.tables, placed.verification, placed.line, raise_reported _ _ _ _⟩

theorem awaiting_none {serial : Serial} (none : c.recordOf serial = none) (state : RecordState) :
    c.awaiting serial state = .error .unknownSerial := by
  rw [Controller.awaiting, none]

theorem awaiting_wrong {serial : Serial} {r : Record} {state : RecordState} (here : c.recordOf serial = some r)
    (other : r.state ≠ state ∨ r.releasePending = true) : c.awaiting serial state = .error .wrongState := by
  rw [Controller.awaiting, here]
  exact if_neg fun ⟨stands, free⟩ => other.elim (fun ne => ne stands) fun pending => by
    rw [pending] at free
    cases free

theorem awaiting_some {serial : Serial} {r : Record} {state : RecordState} (here : c.recordOf serial = some r) (stands : r.state = state)
    (free : r.releasePending = false) : c.awaiting serial state = .ok r := by
  rw [Controller.awaiting, here]
  exact if_pos ⟨stands, free⟩

/-- A report whose record does not await it is stray (R55, R56). -/
theorem judged_of {i : Instr} {kind : Byte} {role : Role} {serial : Serial} {state : RecordState}
    (run : ∀ cause, (heard s.part h kind p).awaiting serial state = .error cause →
      exec i s = .next (s.withPart ((heard s.part h kind p).stray role serial cause))) :
    (s.part.recordOf serial = none → Dropped s i serial role.code 1) ∧
      ∀ r, s.part.recordOf serial = some r → r.state ≠ state ∨ r.releasePending = true → Dropped s i serial role.code 2 :=
  ⟨fun none => dropped_of (cause := .unknownSerial) (run _ (awaiting_none (c := heard s.part h kind p) none state)),
    fun _ here other => dropped_of (cause := .wrongState) (run _ (awaiting_wrong (c := heard s.part h kind p) here other))⟩

theorem takeMass_stray {serial : Serial} {cause : StrayCause} (stray : c.awaiting serial .admitted = .error cause) (mass : Nat) :
    c.takeMass serial mass = c.stray .scale serial cause := by
  rw [Controller.takeMass, stray]

theorem takeFindings_long {codes : List Nat} (long : 8 < codes.length) (serial : Serial) :
    c.takeFindings serial codes = c.stray .visual serial .malformed := if_pos long

theorem takeFindings_stray {serial : Serial} {cause : StrayCause} (stray : c.awaiting serial .weighed = .error cause) {codes : List Nat}
    (short : codes.length ≤ 8) : c.takeFindings serial codes = c.stray .visual serial cause := by
  rw [Controller.takeFindings, if_neg (Nat.not_lt.mpr short), stray]

theorem takeStamp_malformed {outcome struck : Nat} (bad : 1 < outcome ∨ 12 < struck) (serial : Serial) :
    c.takeStamp serial outcome struck = c.stray .stamp serial .malformed := if_pos bad

theorem takeStamp_stray {serial : Serial} {cause : StrayCause} (stray : c.awaiting serial .stamping = .error cause) {outcome struck : Nat}
    (known : outcome ≤ 1) (few : struck ≤ 12) : c.takeStamp serial outcome struck = c.stray .stamp serial cause := by
  rw [Controller.takeStamp, if_neg (by omega), stray]

theorem takeScrap_malformed {outcome : Nat} (bad : 1 < outcome) (serial : Serial) :
    c.takeScrap serial outcome = c.stray .scrap serial .malformed := if_pos bad

theorem takeScrap_stray {serial : Serial} {cause : StrayCause} (stray : c.awaiting serial .scrapping = .error cause) {outcome : Nat}
    (known : outcome ≤ 1) : c.takeScrap serial outcome = c.stray .scrap serial cause := by
  rw [Controller.takeScrap, if_neg (Nat.not_lt.mpr known), stray]

/-- Settles O19: a report of another role is not read, and one that is read and cannot stand is stray. -/
theorem reportsNotTaken : Obligations.ReportsNotTaken := by
  intro s h p hears after role dropped judged
  have unread {kind : Byte} {other : Role} (not : role ≠ other) (only : ∀ x : Role, x.Reports kind.toNat → x = other) :
      ¬(s.part.roleAt h.source.toNat).Reports kind.toNat := fun reads => not (only _ reads)
  refine ⟨⟨fun not => ?_, fun not => ?_, fun not => ?_, fun not => ?_, fun not => ?_, fun not => ?_⟩,
    ⟨fun here bad => ?_, fun here bad => ?_, fun here bad => ?_, fun here bad => ?_, fun here bad => ?_, fun n size here => ⟨fun bad => ⟨?_, ?_⟩,
      fun bad => ?_⟩⟩,
    fun serial => ⟨fun m here read => ?_, fun codes here read => ⟨fun long => ?_, fun short => ?_⟩,
      fun outcome struck here read => ⟨fun bad => ?_, fun known few => ?_⟩, fun outcome here read => ⟨fun bad => ?_, fun known => ?_⟩⟩⟩
  · exact exec_unread (kind := 1) rfl hears (by decide) (unread not fun x => by simp [Role.Reports])
  · exact exec_unread (kind := 2) rfl hears (by decide) (unread not fun x => by simp [Role.Reports])
  · exact exec_unread (kind := 3) rfl hears (by decide) (unread not fun x => by simp [Role.Reports])
  · exact exec_unread (kind := 7) rfl hears (by decide) (unread not fun x => by simp [Role.Reports])
  · exact exec_unread (kind := 8) rfl hears (by decide) (unread not fun x => by simp [Role.Reports])
  · have jackets (k : Nat) (middle : k = 4 ∨ k = 5 ∨ k = 6) : ¬(s.part.roleAt h.source.toNat).Reports k := by
      rintro (⟨_, rfl⟩ | ⟨_, rfl⟩ | ⟨_, rfl⟩ | ⟨_, rfl⟩ | ⟨_, rfl⟩ | ⟨⟨n, size, same⟩, _⟩)
      any_goals omega
      exact not n size same
    exact ⟨exec_unread (kind := 4) rfl hears (by decide) (jackets 4 (.inl rfl)),
      exec_unread (kind := 5) rfl hears (by decide) (jackets 5 (.inr (.inl rfl))),
      exec_unread (kind := 6) rfl hears (by decide) (jackets 6 (.inr (.inr rfl)))⟩
  · exact dropped_of (role := .entry) (cause := .malformed) ((exec_entryTag hears here).trans (by rw [bad]; rfl))
  · exact dropped_of (role := .scale) (cause := .malformed) ((exec_massReading hears here).trans (by rw [bad]; rfl))
  · exact dropped_of (role := .visual) (cause := .malformed) ((exec_visualFindings hears here).trans (by rw [bad]; rfl))
  · exact dropped_of (role := .stamp) (cause := .malformed) ((exec_stampReport hears here).trans (by rw [bad]; rfl))
  · exact dropped_of (role := .scrap) (cause := .malformed) ((exec_scrapReport hears here).trans (by rw [bad]; rfl))
  · exact dropped_of (role := strayJacket n) (cause := .malformed) ((exec_jacketArrival hears here).trans (by rw [bad]; rfl))
  · exact dropped_of (role := strayJacket n) (cause := .malformed) ((exec_jacketClear hears here).trans (by rw [bad]; rfl))
  · exact dropped_of (role := strayJacket n) (cause := .malformed) ((exec_jacketSample_report hears here).trans (by rw [bad]; rfl))
  · exact judged_of (kind := 2) (role := .scale) fun cause stray => by
      rw [exec_massReading hears here, read, Option.elim_some, takeMass_stray stray]
  · exact dropped_of (kind := 3) (role := .visual) (cause := .malformed) (by
      rw [exec_visualFindings hears here, read, Option.elim_some, takeFindings_long long])
  · exact judged_of (kind := 3) (role := .visual) fun cause stray => by
      rw [exec_visualFindings hears here, read, Option.elim_some, takeFindings_stray stray short]
  · exact dropped_of (kind := 7) (role := .stamp) (cause := .malformed) (by
      rw [exec_stampReport hears here, read, Option.elim_some, takeStamp_malformed bad])
  · exact judged_of (kind := 7) (role := .stamp) fun cause stray => by
      rw [exec_stampReport hears here, read, Option.elim_some, takeStamp_stray stray known few]
  · exact dropped_of (kind := 8) (role := .scrap) (cause := .malformed) (by
      rw [exec_scrapReport hears here, read, Option.elim_some, takeScrap_malformed bad])
  · exact judged_of (kind := 8) (role := .scrap) fun cause stray => by
      rw [exec_scrapReport hears here, read, Option.elim_some, takeScrap_stray stray known]

end Sys2Proof.Machine
end

section
/-! SUPPORT. The screening of an entry tag (O13, R45 to R49), admission (O14, R51) and the tags that make no record (O15, R44, R50). -/
namespace Sys2Proof.Machine

variable {c : Controller}

/-! ### The screening -/

theorem dateUsable_iff (tag : EntryTag) (plant : Date) : tag.dateUsable plant = true ↔
    1 ≤ tag.lastMonth ∧ tag.lastMonth ≤ 12 ∧ tag.lastYear ≤ 99 ∧
      tag.lastYear * 12 + (tag.lastMonth - 1) ≤ (plant.year - 2000) * 12 + (plant.month - 1) := by
  simp only [EntryTag.dateUsable, Bool.and_eq_true, decide_eq_true_iff, and_assoc]
  rfl

theorem due_iff (tag : EntryTag) (plant : Date) (advance interval : Nat) : tag.due plant advance interval = true ↔
    tag.lastYear * 12 + (tag.lastMonth - 1) + 12 * interval ≤ (plant.year - 2000) * 12 + (plant.month - 1) + advance := by
  rw [EntryTag.due, decide_eq_true_iff]
  rfl

theorem recordOf_isSome (c : Controller) (serial : Serial) :
    (c.recordOf serial).isSome = true ↔ ∃ r ∈ c.records, r.serial = serial := by
  rw [Controller.recordOf, List.find?_isSome]
  simp

theorem isReference_iff (e : TypeEntry) : e.isReference = true ↔ e.reference ≠ none := by
  rw [TypeEntry.isReference, Option.isSome_iff_ne_none]

section Screen
variable {tag : EntryTag} {e : TypeEntry} {w : Window} {plant : Date}

/-- The checks of R47 to R49 on an ordinary type's cylinder. -/
def Controller.screenDate (c : Controller) (tag : EntryTag) (e : TypeEntry) : Screening :=
  match c.tables.windowOf tag.serial, c.line.date with
  | none, _ => .gate .returnLane
  | some _, none => .gate .manual
  | some w, some plant =>
    if tag.dateUsable plant = false then .gate .manual
    else if tag.due plant c.line.items.advanceWindow e.interval then .admission e (some w)
    else .gate .fill

theorem screenDate_outside (outside : c.tables.windowOf tag.serial = none) : c.screenDate tag e = .gate .returnLane := by
  rw [Controller.screenDate, outside]

theorem screenDate_covered (covered : c.tables.windowOf tag.serial = some w) (dated : c.line.date = some plant) :
    c.screenDate tag e = if tag.dateUsable plant = false then .gate .manual
      else if tag.due plant c.line.items.advanceWindow e.interval then .admission e (some w) else .gate .fill := by
  rw [Controller.screenDate, covered, dated]

theorem screen_known (read : tag.status = 0) (typed : c.tables.types[tag.typeCode]? = some e) :
    c.screen tag = if e.valid = false then .gate .manual else if (c.recordOf tag.serial).isSome then .duplicate
      else if e.isReference then .admission e none else c.screenDate tag e := by
  unfold Controller.screen
  rw [if_neg (not_not.mpr read), typed]
  rfl

end Screen

/-- Settles O13: the checks in their order. -/
theorem screeningOrder : Obligations.ScreeningOrder := by
  refine ⟨fun tag plant advance interval => ⟨dateUsable_iff tag plant, due_iff tag plant advance interval⟩,
    fun c tag => ⟨fun unread => if_pos unread, fun read high => ?_, fun e read typed => ⟨fun invalid => ?_, fun valid twice => ?_,
      fun valid fresh => ?_⟩⟩⟩
  · have untyped : c.tables.types[tag.typeCode]? = none := Vector.getElem?_eq_none (by omega)
    rw [Controller.screen, if_neg (not_not.mpr read), untyped]
  · rw [screen_known read typed, if_pos invalid]
  · rw [screen_known read typed, if_neg (ne_false_of_eq_true valid), if_pos ((recordOf_isSome c _).mpr twice)]
  · have alone : ¬(c.recordOf tag.serial).isSome = true := fun h =>
      have ⟨r, member, same⟩ := (recordOf_isSome c _).mp h
      fresh r member same
    have known := screen_known read typed
    rw [if_neg (ne_false_of_eq_true valid), if_neg alone] at known
    have date (ordinary : e.reference = none) : c.screen tag = c.screenDate tag e :=
      known.trans (if_neg fun h => (isReference_iff e).mp h ordinary)
    refine ⟨fun reference => known.trans (if_pos ((isReference_iff e).mpr reference)),
      fun ordinary outside => (date ordinary).trans (screenDate_outside outside),
      fun w plant ordinary covered dated => ⟨fun unusable => ?_, fun usable notDue => ?_, fun usable due => ?_⟩⟩
    all_goals rw [date ordinary, screenDate_covered covered dated]
    · exact if_pos unusable
    · rw [if_neg (ne_false_of_eq_true usable), if_neg (ne_true_of_eq_false notDue)]
    · rw [if_neg (ne_false_of_eq_true usable), if_pos due]

/-! ### The queue after a judgment -/

theorem raiseInfeedHeld_queue (c : Controller) (cause : Nat) {x : QueueEntry} (member : x ∈ (c.raiseInfeedHeld cause).ring.queue) :
    x ∈ c.ring.queue ∨ x.owner = .notice .infeedHeld := by
  unfold Controller.raiseInfeedHeld at member
  dsimp only at member
  split at member
  · rcases List.mem_append.mp member with old | new
    · exact .inl old
    · rw [List.mem_singleton.mp new]
      exact .inr rfl
  · exact .inl member

/-- A judgment of the infeed mark places frames of the mark and of INFEED_HELD only (R53, R54). -/
theorem judge_queue (freed : Bool) (c : Controller) {x : QueueEntry} (member : x ∈ (c.judge freed).ring.queue) :
    x ∈ c.ring.queue ∨ x.owner = .infeed ∨ x.owner = .notice .infeedHeld := by
  by_cases stands : c.mark.value = c.infeedReasons.wanted
  · rw [judge_calm stands] at member
    exact .inl member
  · have flipped {x : QueueEntry} (member : x ∈ (c.flipped.flipFrame freed c.infeedReasons.wanted).ring.queue) :
        x ∈ c.ring.queue ∨ x.owner = .infeed := by
      obtain ⟨-, ⟨placed, unplaced⟩, -⟩ := flipFrame_spec c.flipped freed c.infeedReasons.wanted
      by_cases places : c.flipped.FlipPlaces freed c.infeedReasons.wanted
      · rw [placed places] at member
        rcases List.mem_append.mp member with old | new
        · exact .inl old
        · rw [List.mem_singleton.mp new]
          exact .inr rfl
      · rw [unplaced places] at member
        exact .inl member
    rw [judge_flips stands] at member
    split at member
    · rcases raiseInfeedHeld_queue _ _ member with old | held
      · exact (flipped old).imp id .inl
      · exact .inr (.inr held)
    · exact (flipped member).imp id .inl

/-! ### Admission -/

/-- Every slot below the free one is held (R40). -/
theorem below_freeSlot (room : c.records.length < 64) {k : Nat} (below : k < c.freeSlot) : ∃ r ∈ c.records, r.slot = k := by
  have small := (freeSlot_free c room).1
  unfold Controller.freeSlot at below small
  rcases found : (List.range Config.registerCapacity).find? fun s => (c.recordAt s).isNone with _ | slot
  · rw [found, Option.getD_none] at small
    exact absurd small (Nat.lt_irrefl _)
  · rw [found, Option.getD_some] at below
    have held := (List.find?_range_eq_some.mp found).2.2 k below
    rw [Bool.not_eq_true', Option.isNone_eq_false_iff, Option.isSome_iff_exists] at held
    obtain ⟨r, here⟩ := held
    exact ⟨r, recordAt_mem here, recordAt_slot here⟩

theorem takeTag_screened {tag : EntryTag} (running : c.line.state = .running) (register : c.records.length < 64)
    (room : normalRoom c.ring.queue = true) : (∀ e w, c.screen tag = .admission e w → c.takeTag tag = c.admission tag e w) ∧
      (∀ lane, c.screen tag = .gate lane → c.takeTag tag = c.gateOnly tag.serial lane) ∧
      (c.screen tag = .duplicate → c.takeTag tag = (c.gateOnly tag.serial .manual).raise .duplicateSerial tag.serial 0) := by
  have acts : c.actsOnTags = true := (actsOnTags_iff c).mpr ⟨running, register, room⟩
  refine ⟨fun e w outcome => ?_, fun lane outcome => ?_, fun outcome => ?_⟩ <;> rw [Controller.takeTag, if_pos acts, outcome]

theorem takeTag_idle (tag : EntryTag) (idle : c.line.state ≠ .running ∨ 64 ≤ c.records.length ∨ normalRoom c.ring.queue = false) :
    c.takeTag tag = c.judge false := by
  refine if_neg fun acts => ?_
  obtain ⟨running, register, room⟩ := (actsOnTags_iff c).mp acts
  rcases idle with stands | full | none
  · exact stands running
  · exact absurd register (Nat.not_lt.mpr full)
  · rw [none] at room
    cases room

/-- Settles O14: admission appends the record, in the lowest free slot, and judges the mark. -/
theorem entryTagAdmits : Obligations.EntryTagAdmits := by
  intro s h p tag e w hears role read running register room outcome
  let c := heard s.part h 1 p
  have placed := judge_onlyPlaces false { c with records := c.records ++ [admitted c.freeSlot tag e w] }
  have taken : c.takeTag tag = c.admission tag e w := (takeTag_screened (c := c) running register room).1 e w outcome
  have free := freeSlot_free c register
  refine ⟨c.admission tag e w, c.freeSlot, ?_, ⟨free.1, fun r member same => free.2 (List.mem_map.mpr ⟨r, member, same⟩),
    fun k below => below_freeSlot (c := c) register below⟩, placed.records, fun x member => ?_, placed.tables,
    placed.jackets, placed.verification, placed.line⟩
  · rw [exec_entryTag hears role, read, Option.elim_some]
    exact congrArg (fun d => Host.Outcome.next (s.withPart d)) taken
  · exact judge_queue false { c with records := c.records ++ [admitted c.freeSlot tag e w] } member

/-! ### No record -/

theorem gateOnly_spec (c : Controller) (serial : Serial) (lane : GateDest) : OnlyPlaces c (c.gateOnly serial lane) ∧
    { destination := c.nodeWhere (· == .router), body := .gate serial lane, owner := .recordless serial, clearedEnable := false,
      testMark := false } ∈ (c.gateOnly serial lane).ring.queue :=
  have judged := judge_onlyPlaces false (c.enqueue (.gate serial lane) (.recordless serial))
  ⟨(enqueue_onlyPlaces _ _ _ _ _).trans judged, judged.stays (List.mem_append_right _ (List.mem_singleton_self _))⟩

/-- Settles O15: the screening's other outcomes place a gate order without an owner, and a tag that is not acted on judges the mark. -/
theorem entryTagMakesNoRecord : Obligations.EntryTagMakesNoRecord := by
  refine ⟨fun s h p tag hears role read running register room => ⟨fun lane outcome => ?_, fun outcome => ?_⟩,
    fun s h p tag hears role read idle => ?_⟩
  all_goals
    let c := heard s.part h 1 p
    have run : exec (.entryTag h p) s = .next (s.withPart (c.takeTag tag)) := by rw [exec_entryTag hears role, read, Option.elim_some]
  · have taken : c.takeTag tag = c.gateOnly tag.serial lane := (takeTag_screened (c := c) running register room).2.1 lane outcome
    rw [taken] at run
    have ⟨only, order⟩ := gateOnly_spec c tag.serial lane
    exact ⟨_, run, only.records, order⟩
  · have taken : c.takeTag tag = (c.gateOnly tag.serial .manual).raise .duplicateSerial tag.serial 0 :=
      (takeTag_screened (c := c) running register room).2.2 outcome
    rw [taken] at run
    have ⟨only, order⟩ := gateOnly_spec c tag.serial .manual
    have raised := raise_onlyPlaces (c.gateOnly tag.serial .manual) .duplicateSerial tag.serial 0
    exact ⟨_, run, raised.records.trans only.records, raised.stays order, raise_reported _ _ _ _⟩
  · have taken : c.takeTag tag = c.judge false := takeTag_idle (c := c) tag idle
    rw [taken] at run
    exact ⟨_, run, (judge_onlyPlaces false c).records, judge_judged false c, fun x member => judge_queue false c member⟩

end Sys2Proof.Machine
end

section
/-! SUPPORT. The owed arbitration as a run of single steps (R8): a frame placed, a record dropped, an entry withdrawn. -/
namespace Sys2Proof.Machine

variable {c d e : Controller}

/-! ### Frames of the part itself -/

/-- Frames of the infeed mark, the notices and the reply buffer. -/
def Owner.unbound : Owner → Bool
  | .infeed | .reply | .notice _ => true
  | _ => false

/-- Only frames of the infeed mark, the notices and the reply buffer are placed, and nothing else is changed but what these hold. -/
structure PlacesUnbound (c d : Controller) : Prop where
  only : OnlyPlaces c d
  placed : ∃ new, d.ring.queue = c.ring.queue ++ new ∧ ∀ x ∈ new, x.owner.unbound = true

theorem PlacesUnbound.of_same (only : OnlyPlaces c d) (queue : d.ring.queue = c.ring.queue) : PlacesUnbound c d :=
  ⟨only, [], by rw [queue, List.append_nil], nofun⟩

theorem PlacesUnbound.refl : PlacesUnbound c c := .of_same .refl rfl

theorem PlacesUnbound.trans (h : PlacesUnbound c d) (k : PlacesUnbound d e) : PlacesUnbound c e := by
  obtain ⟨new, queue, unbound⟩ := h.placed
  obtain ⟨new', queue', unbound'⟩ := k.placed
  refine ⟨h.only.trans k.only, new ++ new', by rw [queue', queue, List.append_assoc], fun x member => ?_⟩
  exact (List.mem_append.mp member).elim (unbound x) (unbound' x)

theorem placesUnbound_of_queue (only : OnlyPlaces c d) {x : QueueEntry} (queue : d.ring.queue = c.ring.queue ++ [x])
    (unbound : x.owner.unbound = true) : PlacesUnbound c d :=
  ⟨only, [x], queue, fun y member => by rw [List.mem_singleton.mp member, unbound]⟩

theorem raiseInfeedHeld_places (c : Controller) (cause : Nat) : PlacesUnbound c (c.raiseInfeedHeld cause) := by
  have marked : PlacesUnbound c (c.markRaise .infeedHeld 0 cause false) := .of_same (markRaise_onlyPlaces _ _ _ _ _) rfl
  unfold Controller.raiseInfeedHeld
  dsimp only
  split
  · exact marked.trans (placesUnbound_of_queue ((putNotice_onlyPlaces _ _).trans (setMark_onlyPlaces _ _)) rfl rfl)
  · exact marked

theorem judge_places (freed : Bool) (c : Controller) : PlacesUnbound c (c.judge freed) := by
  by_cases stands : c.mark.value = c.infeedReasons.wanted
  · rw [judge_calm stands]
    exact .of_same (setMark_onlyPlaces _ _) rfl
  · have marked : PlacesUnbound c c.flipped := .of_same (setMark_onlyPlaces _ _) rfl
    have flipped : PlacesUnbound c.flipped (c.flipped.flipFrame freed c.infeedReasons.wanted) := by
      have only := flipFrame_onlyPlaces c.flipped freed c.infeedReasons.wanted
      obtain ⟨-, ⟨placed, unplaced⟩, -⟩ := flipFrame_spec c.flipped freed c.infeedReasons.wanted
      by_cases places : c.flipped.FlipPlaces freed c.infeedReasons.wanted
      · exact placesUnbound_of_queue only (placed places) rfl
      · exact .of_same only (unplaced places)
    rw [judge_flips stands]
    split
    · exact (marked.trans flipped).trans (raiseInfeedHeld_places _ _)
    · exact marked.trans flipped

theorem offerNotice_places (c : Controller) (cls : NoticeClass) : PlacesUnbound c (c.offerNotice cls) := by
  unfold Controller.offerNotice
  split
  · exact (placesUnbound_of_queue (putNotice_onlyPlaces c cls) rfl rfl).trans (judge_places false _)
  · exact .refl

theorem offerNotices_places (c : Controller) : PlacesUnbound c c.offerNotices := by
  unfold Controller.offerNotices
  generalize noticeClasses = l
  induction l generalizing c with
  | nil => exact .refl
  | cons cls l ih => exact (offerNotice_places c cls).trans (ih _)

theorem raise_places (c : Controller) (cls : NoticeClass) (subject cause : Nat) : PlacesUnbound c (c.raise cls subject cause) :=
  PlacesUnbound.trans (.of_same (markRaise_onlyPlaces c cls subject cause false) rfl) (offerNotice_places _ _)

theorem offerReply_places (c : Controller) : PlacesUnbound c c.offerReply := by
  unfold Controller.offerReply
  split
  · next r held =>
    split
    · exact (placesUnbound_of_queue (placeReply_onlyPlaces held) rfl rfl).trans (judge_places false _)
    · exact .refl
  · exact .refl

theorem offerOwedInfeed_places (c : Controller) (o : InfeedOrder) : PlacesUnbound c (c.offerOwedInfeed o) := by
  rcases offerOwedInfeed_cases c o with ⟨-, same | ⟨-, cleared⟩⟩ | ⟨-, -, made⟩
  · rw [same]
    exact .refl
  · rw [cleared]
    exact .of_same (setMark_onlyPlaces _ _) rfl
  · rw [made]
    split
    · exact (placesUnbound_of_queue ((enqueue_onlyPlaces _ _ _ _ _).trans (setMark_onlyPlaces _ _)) rfl rfl).trans (judge_places false _)
    · exact .refl

/-! ### The single steps -/

/-- The record in a slot dropped, and its frames without their owner (R58, steps 2 to 4). -/
def Controller.dropRecord (c : Controller) (slot : Nat) : Controller :=
  { c with
    records := c.records.filter fun r => r.slot != slot
    ring := { c.ring with
      queue := c.ring.queue.map (QueueEntry.disownResult slot), outstanding := c.ring.outstanding.map (OutEntry.disown slot) } }

/-- One step of the owed arbitration. -/
inductive Micro (c : Controller) : Controller → Prop
  | places {d : Controller} (h : PlacesUnbound c d) : Micro c d
  | command (n : JacketNo) (k : Command) (owed : (c.jacket n).owedCommand = some k) (room : c.hasRoom (.command n k) = true) :
      Micro c ((c.enqueue (.command n k) (.jacket n)).updJacket n fun j => { j with owedCommand := none })
  | order (slot : Nat) (r : Record) (o : Order) (rest : List Order) (here : c.recordAt slot = some r) (owed : r.owedOrders = o :: rest)
      (room : c.hasRoom (o.body r.serial) = true) :
      Micro c ((c.updRecord slot fun r => { r with owedOrders := rest }).enqueue (o.body r.serial) (.record slot))
  | result (slot : Nat) (r : Record) (l : LastResult) (here : c.recordAt slot = some r) (last : r.lastResult = some l) :
      Micro c ((c.enqueue (.testResult r.serial l) (.record slot)).updRecord slot fun r => { r with resultOwed := false })
  | drop (slot : Nat) (r : Record) (here : c.recordAt slot = some r) (pending : r.releasePending = true) : Micro c (c.dropRecord slot)
  | withdraw (slot : Nat) (gone : c.recordAt slot = none) : Micro c (c.setQueue (c.ring.queue.eraseP (QueueEntry.isOrderOf slot)))
  | drained (stopping : c.line.state = .stopping) (empty : c.records = []) : Micro c (c.setLineState .stopped)

/-- A run of single steps. -/
abbrev Runs : Controller → Controller → Prop := Relation.ReflTransGen Micro

theorem Micro.runs (h : Micro c d) : Runs c d := .single h
theorem PlacesUnbound.runs (h : PlacesUnbound c d) : Runs c d := (Micro.places h).runs

/-- What every step keeps a run keeps. -/
theorem Runs.keep {p : Controller → Prop} (step : ∀ a b, Micro a b → p a → p b) (h : Runs c d) (start : p c) : p d := by
  induction h with
  | refl => exact start
  | tail _ k ih => exact step _ _ k ih

theorem foldl_runs {α : Type} {f : Controller → α → Controller} (h : ∀ c a, Runs c (f c a)) (l : List α) (c : Controller) :
    Runs c (l.foldl f c) := by
  induction l generalizing c with
  | nil => exact .refl
  | cons a l ih => exact (h c a).trans (ih _)

theorem updJacket_same {n : JacketNo} {f : Jacket → Jacket} (same : f (c.jacket n) = c.jacket n) : c.updJacket n f = c := by
  unfold Controller.updJacket
  rw [same]
  exact congrArg (fun jackets => { c with jackets }) (Vector.set_getElem_self _)

theorem offerOwedCommand_runs (vent : Bool) (c : Controller) (n : JacketNo) : Runs c (c.offerOwedCommand vent n) := by
  rcases offerOwedCommand_cases c vent n with ⟨same, -⟩ | ⟨k, owed, -, made⟩
  · rw [same]
  · rw [made]
    unfold Controller.offerCommand
    split
    · next room => exact (Micro.command n k owed room).runs.trans (judge_places false _).runs
    · rw [updJacket_same (f := fun j => { j with owedCommand := some k }) (by rw [← owed])]

theorem recordAt_updOrders (c : Controller) (slot : Nat) (rest : List Order) :
    (c.updRecord slot fun r => { r with owedOrders := rest }).recordAt slot =
      (c.recordAt slot).map fun r => { r with owedOrders := rest } :=
  recordAt_updRecord c slot _ fun _ => rfl

theorem OnlyPlaces.recordAt (h : OnlyPlaces c d) (slot : Nat) : d.recordAt slot = c.recordAt slot := by
  rw [Controller.recordAt, h.records, Controller.recordAt]

theorem offerOrders_runs (slot : Nat) (l : List Order) (c : Controller) (r : Record) (here : c.recordAt slot = some r)
    (owed : r.owedOrders = l) : Runs c (c.offerOrders slot r.serial l) := by
  induction l generalizing c r with
  | nil => exact .refl
  | cons o rest ih =>
    unfold Controller.offerOrders
    split
    · next room =>
      have judged := judge_places false ((c.updRecord slot fun r => { r with owedOrders := rest }).enqueue (o.body r.serial) (.record slot))
      refine (Micro.order slot r o rest here owed room).runs.trans (judged.runs.trans ?_)
      refine ih _ { r with owedOrders := rest } ?_ rfl
      rw [judged.only.recordAt]
      exact (recordAt_updOrders c slot rest).trans (by rw [here]; rfl)
    · exact .refl

/-- No record holds the slot, and none comes to hold it. -/
theorem Micro.gone {slot : Nat} (h : Micro c d) (vacant : c.recordAt slot = none) : d.recordAt slot = none := by
  have upd {x : Controller} (s : Nat) (f : Record → Record) (keeps : ∀ r, (f r).slot = r.slot) (records : x.records = (c.updRecord s f).records) :
      x.recordAt slot = none := by
    rw [Controller.recordAt, records]
    show (c.updRecord s f).recordAt slot = none
    by_cases same : slot = s
    · rw [same, recordAt_updRecord c s f keeps, ← same, vacant]
      rfl
    · rw [recordAt_updRecord_other c same keeps, vacant]
  cases h with
  | places h => rw [h.only.recordAt, vacant]
  | command n k owed room => exact vacant
  | order s r o rest here owed room => exact upd s (fun r => { r with owedOrders := rest }) (fun _ => rfl) rfl
  | result s r l here => exact upd s (fun r => { r with resultOwed := false }) (fun _ => rfl) rfl
  | drop s r here pending =>
    rw [Controller.recordAt, List.find?_eq_none] at vacant ⊢
    exact fun x member => vacant x (List.mem_of_mem_filter member)
  | withdraw s gone => exact vacant
  | drained stopping empty => exact vacant

theorem Runs.gone {slot : Nat} (h : Runs c d) (vacant : c.recordAt slot = none) : d.recordAt slot = none :=
  h.keep (p := fun x => x.recordAt slot = none) (fun _ _ step => step.gone) vacant

theorem withdrawLoop_runs {arb : Controller → Controller} (runs : ∀ c, Runs c (arb c)) (slot : Nat) (fuel : Nat) (c : Controller)
    (gone : c.recordAt slot = none) : Runs c (Controller.withdrawLoop arb (QueueEntry.isOrderOf slot) fuel c) := by
  induction fuel generalizing c with
  | zero => exact .refl
  | succ fuel ih =>
    unfold Controller.withdrawLoop
    split
    · have step := ((Micro.withdraw slot gone).runs.trans (judge_places true _).runs).trans (runs _)
      exact step.trans (ih _ (Runs.gone step gone))
    · exact .refl

theorem finishDrain_runs (c : Controller) : Runs c c.finishDrain := by
  unfold Controller.finishDrain
  split
  · next h => exact ((Micro.drained h.1 h.2).runs.trans (raise_places _ _ _ _).runs).trans (judge_places false _).runs
  · exact .refl

theorem dropRecord_gone (c : Controller) (slot : Nat) : (c.dropRecord slot).recordAt slot = none := by
  rw [Controller.recordAt, List.find?_eq_none]
  intro x member
  simpa using (List.mem_filter.mp member).2

/-- The removal of a record, after it is dropped (R58). -/
theorem removeWith_runs {arb : Controller → Controller} (runs : ∀ c, Runs c (arb c)) (slot : Nat) (c : Controller) :
    Runs (c.dropRecord slot) (Controller.removeWith arb slot c) :=
  ((withdrawLoop_runs runs slot _ _ (dropRecord_gone c slot)).trans (judge_places false _).runs).trans (finishDrain_runs _)

theorem offerRecordWith_runs {arb : Controller → Controller} (runs : ∀ c, Runs c (arb c)) (c : Controller) (slot : Nat) :
    Runs c (Controller.offerRecordWith arb c slot) := by
  unfold Controller.offerRecordWith
  split
  · exact .refl
  · next r here =>
    split
    · split
      · exact .refl
      · next l last =>
        split
        · have judged := judge_places false ((c.enqueue (.testResult r.serial l) (.record slot)).updRecord slot
            fun r => { r with resultOwed := false })
          have placed : Runs c (c.putResult slot r.serial l) := (Micro.result slot r l here last).runs.trans judged.runs
          have after : (c.putResult slot r.serial l).recordAt slot = some { r with resultOwed := false } := by
            refine (judged.only.recordAt slot).trans
              ((recordAt_updRecord (c.enqueue (.testResult r.serial l) (.record slot)) slot (fun r => { r with resultOwed := false })
                fun _ => rfl).trans ?_)
            show (c.recordAt slot).map _ = _
            rw [here]
            rfl
          dsimp only
          split
          · next pending => exact placed.trans ((Micro.drop slot _ after pending).runs.trans (removeWith_runs runs slot _))
          · exact placed.trans (offerOrders_runs slot r.owedOrders _ { r with resultOwed := false } after rfl)
        · exact .refl
    · exact offerOrders_runs slot _ c r here rfl

theorem arbitrateWith_runs {inner : Controller → Controller} (runs : ∀ c, Runs c (inner c)) (c : Controller) :
    Runs c (Controller.arbitrateWith inner c) := by
  unfold Controller.arbitrateWith
  dsimp only
  refine .trans ?_ (offerNotices_places _).runs
  refine .trans ?_ (offerReply_places _).runs
  refine .trans ?_ (offerOwedInfeed_places _ _).runs
  refine .trans ?_ (foldl_runs (offerOwedCommand_runs false) _ _)
  refine .trans ?_ (foldl_runs (offerRecordWith_runs runs) _ _)
  refine .trans ?_ (offerOwedInfeed_places _ _).runs
  exact foldl_runs (offerOwedCommand_runs true) _ _

theorem arbitrateDepth_runs (depth : Nat) (c : Controller) : Runs c (Controller.arbitrateDepth depth c) := by
  induction depth generalizing c with
  | zero => exact .refl
  | succ depth ih => exact arbitrateWith_runs ih c

theorem arbitrate_runs (c : Controller) : Runs c c.arbitrate := arbitrateDepth_runs _ c

theorem afterFreeing_runs (c : Controller) : Runs c c.afterFreeing := (judge_places true c).runs.trans (arbitrate_runs _)

theorem offerRecord_runs (c : Controller) (slot : Nat) : Runs c (c.offerRecord slot) := offerRecordWith_runs arbitrate_runs c slot

end Sys2Proof.Machine
end

section
/-! SUPPORT. The transmitter (O12, R6, R9, R10): what the arbitration behind a frame that starts leaves of the outstanding list and the queue. -/
namespace Sys2Proof.Machine

variable {c d e : Controller}

/-! ### The outstanding list -/

/-- What an outstanding entry keeps when its owner is lost or its order stands no longer (R10, R58). -/
def OutEntry.shown (x : OutEntry) : Nat × Nat × Body × Nat := (x.sequence, x.start, x.body, x.destination)

theorem disown_shown (slot : Nat) (x : OutEntry) : (x.disown slot).shown = x.shown := by
  unfold OutEntry.disown
  split <;> rfl

theorem Micro.shown (h : Micro c d) : d.ring.outstanding.map OutEntry.shown = c.ring.outstanding.map OutEntry.shown := by
  cases h with
  | places h => rw [h.only.ring]
  | drop slot r here pending =>
    show (c.ring.outstanding.map (OutEntry.disown slot)).map OutEntry.shown = _
    rw [List.map_map]
    exact List.map_congr_left fun x _ => disown_shown slot x
  | _ => rfl

theorem Runs.shown (h : Runs c d) : d.ring.outstanding.map OutEntry.shown = c.ring.outstanding.map OutEntry.shown :=
  h.keep (p := fun x => x.ring.outstanding.map OutEntry.shown = c.ring.outstanding.map OutEntry.shown)
    (fun _ _ step same => step.shown.trans same) rfl

/-! ### The queue while no release is pending -/

/-- No record's release is pending (R59). -/
def Controller.NoPending (c : Controller) : Prop := ∀ r ∈ c.records, r.releasePending = false

/-- Frames are placed behind, the outstanding list is the same, and no release becomes pending. -/
structure GrowsOnly (c d : Controller) : Prop where
  queue : c.ring.queue <+: d.ring.queue
  outstanding : d.ring.outstanding = c.ring.outstanding
  pending : d.NoPending

theorem GrowsOnly.trans (h : GrowsOnly c d) (k : GrowsOnly d e) : GrowsOnly c e :=
  ⟨h.queue.trans k.queue, k.outstanding.trans h.outstanding, k.pending⟩

theorem OnlyPlaces.grows (h : OnlyPlaces c d) (free : c.NoPending) : GrowsOnly c d :=
  ⟨h.queue, by rw [h.ring], by rw [Controller.NoPending, h.records]; exact free⟩

theorem NoPending.updRecord (free : c.NoPending) (slot : Nat) {f : Record → Record} (keeps : ∀ r, (f r).releasePending = r.releasePending) :
    (c.updRecord slot f).NoPending := by
  intro x member
  obtain ⟨r, here, rfl⟩ := List.mem_map.mp member
  split
  · rw [keeps]
    exact free r here
  · exact free r here

theorem foldl_grows {α : Type} {f : Controller → α → Controller} (h : ∀ c a, c.NoPending → GrowsOnly c (f c a)) (l : List α) (c : Controller)
    (free : c.NoPending) : GrowsOnly c (l.foldl f c) := by
  induction l generalizing c with
  | nil => exact ⟨List.prefix_rfl, rfl, free⟩
  | cons a l ih =>
    have first := h c a free
    exact first.trans (ih _ first.pending)

theorem offerOwedCommand_grows (vent : Bool) (c : Controller) (n : JacketNo) (free : c.NoPending) :
    GrowsOnly c (c.offerOwedCommand vent n) := by
  rcases offerOwedCommand_cases c vent n with ⟨same, -⟩ | ⟨k, -, -, made⟩
  · rw [same]
    exact ⟨List.prefix_rfl, rfl, free⟩
  · rw [made]
    unfold Controller.offerCommand
    split
    · have placed : GrowsOnly c ((c.enqueue (.command n k) (.jacket n)).updJacket n fun j => { j with owedCommand := none }) :=
        ⟨List.prefix_append _ _, rfl, free⟩
      exact placed.trans ((judge_onlyPlaces false _).grows placed.pending)
    · exact ⟨List.prefix_rfl, rfl, free⟩

theorem offerOrders_grows (slot : Nat) (serial : Serial) (l : List Order) (c : Controller) (free : c.NoPending) :
    GrowsOnly c (c.offerOrders slot serial l) := by
  induction l generalizing c with
  | nil => exact ⟨List.prefix_rfl, rfl, free⟩
  | cons o rest ih =>
    unfold Controller.offerOrders
    split
    · have placed : GrowsOnly c ((c.updRecord slot fun r => { r with owedOrders := rest }).enqueue (o.body serial) (.record slot)) :=
        ⟨List.prefix_append _ _, rfl, NoPending.updRecord free slot fun _ => rfl⟩
      have judged := placed.trans ((judge_onlyPlaces false _).grows placed.pending)
      exact judged.trans (ih _ judged.pending)
    · exact ⟨List.prefix_rfl, rfl, free⟩

theorem offerRecordWith_grows (arb : Controller → Controller) (c : Controller) (slot : Nat) (free : c.NoPending) :
    GrowsOnly c (Controller.offerRecordWith arb c slot) := by
  unfold Controller.offerRecordWith
  split
  · exact ⟨List.prefix_rfl, rfl, free⟩
  · next r here =>
    split
    · split
      · exact ⟨List.prefix_rfl, rfl, free⟩
      · next l last =>
        split
        · have placed : GrowsOnly c ((c.enqueue (.testResult r.serial l) (.record slot)).updRecord slot fun r => { r with resultOwed := false }) :=
            ⟨List.prefix_append _ _, rfl, NoPending.updRecord (c := c.enqueue _ _) free slot fun _ => rfl⟩
          have judged : GrowsOnly c (c.putResult slot r.serial l) := placed.trans ((judge_onlyPlaces false _).grows placed.pending)
          dsimp only
          rw [if_neg (ne_true_of_eq_false (free r (recordAt_mem here)))]
          exact judged.trans (offerOrders_grows _ _ _ _ judged.pending)
        · exact ⟨List.prefix_rfl, rfl, free⟩
    · exact offerOrders_grows _ _ _ _ free

theorem arbitrate_grows (c : Controller) (free : c.NoPending) : GrowsOnly c c.arbitrate := by
  show GrowsOnly c (Controller.arbitrateWith (Controller.arbitrateDepth c.records.length) c)
  unfold Controller.arbitrateWith
  dsimp only
  have vents := foldl_grows (offerOwedCommand_grows true) jacketNumbers c free
  have hold := vents.trans ((offerOwedInfeed_onlyPlaces _ .hold).grows vents.pending)
  have records := hold.trans (foldl_grows (offerRecordWith_grows (Controller.arbitrateDepth c.records.length))
    (((jacketNumbers.foldl (Controller.offerOwedCommand true) c).offerOwedInfeed .hold).records.map Record.slot) _ hold.pending)
  have commands := records.trans (foldl_grows (offerOwedCommand_grows false) jacketNumbers _ records.pending)
  have release := commands.trans ((offerOwedInfeed_onlyPlaces _ .release).grows commands.pending)
  have reply := release.trans ((offerReply_onlyPlaces _).grows release.pending)
  exact reply.trans ((offerNotices_onlyPlaces _).grows reply.pending)

theorem afterFreeing_grows (c : Controller) (free : c.NoPending) : GrowsOnly c c.afterFreeing :=
  have judged := (judge_onlyPlaces true c).grows free
  judged.trans (arbitrate_grows _ judged.pending)

/-! ### The choice of the transmitter (R9) -/

theorem urgent_iff (b : Body) : b.urgent = true ↔ (∃ n, b = .command n .vent) ∨ b = .infeed .hold := by
  rcases b with (_ | _) | _ | ⟨n, (_ | _ | _)⟩ | _ | _ | _ | _ | _ <;> simp [Body.urgent]

theorem ownCandidate_eq (c : Controller) : c.ownCandidate =
    if c.ring.status = .up ∧ c.ring.outstanding.length < 16 ∧ c.bypass = false then queueHead c.ring.queue else none := rfl

theorem queueHead_none (q : List QueueEntry) : queueHead q = none ↔ q = [] := by
  cases q with
  | nil => exact ⟨fun _ => rfl, fun _ => rfl⟩
  | cons e l =>
    refine ⟨fun h => ?_, nofun⟩
    rw [queueHead, Option.or_eq_none_iff] at h
    exact absurd h.2 (by simp)

theorem ownCandidate_none (c : Controller) : c.ownCandidate = none ↔
    ¬(c.ring.status = .up ∧ c.ring.outstanding.length < 16 ∧ c.bypass = false ∧ c.ring.queue ≠ []) := by
  rw [ownCandidate_eq]
  split
  · next able => rw [queueHead_none]; tauto
  · next unable => exact ⟨fun _ h => unable ⟨h.1, h.2.1, h.2.2.1⟩, fun _ => rfl⟩

theorem transmit_own {e : QueueEntry} (free : c.ring.transmitter = .free) (candidate : c.ownCandidate = some e)
    (turn : c.ring.forward = [] ∨ 4 ≤ c.ring.streak) : c.transmit = c.startOwn e := by
  unfold Controller.transmit
  rw [if_neg (not_not.mpr free), candidate]
  rcases waits : c.ring.forward with _ | ⟨f, l⟩
  · rfl
  · exact if_pos (turn.resolve_left (by rw [waits]; exact nofun))

theorem transmit_idle (candidate : c.ownCandidate = none) (empty : c.ring.forward = []) : c.transmit = c := by
  unfold Controller.transmit
  rw [candidate, empty]
  exact ite_self _

theorem transmit_forwarded (free : c.ring.transmitter = .free) (waits : c.ring.forward ≠ []) :
    (c.ownCandidate = none → c.transmit = c.startForwarded 0) ∧
      (c.ownCandidate ≠ none → c.ring.streak < 4 → c.transmit = c.startForwarded (c.ring.streak + 1)) := by
  unfold Controller.transmit
  rw [if_neg (not_not.mpr free)]
  obtain ⟨f, l, forward⟩ := List.exists_cons_of_ne_nil waits
  rw [forward]
  constructor
  · intro none
    rw [none]
  · intro some low
    obtain ⟨e, candidate⟩ := Option.ne_none_iff_exists'.mp some
    rw [candidate]
    exact if_neg (Nat.not_le.mpr low)

/-- The chosen entry and the rest of the queue (R6). -/
theorem queueHead_chosen {before later : List QueueEntry} {e : QueueEntry}
    (chosen : (e.body.urgent = true ∧ ∀ x ∈ before, ¬x.body.urgent = true) ∨ (before = [] ∧ ∀ x ∈ e :: later, ¬x.body.urgent = true)) :
    queueHead (before ++ e :: later) = some e ∧ queueRest (before ++ e :: later) = before ++ later := by
  rcases chosen with ⟨urgent, normal⟩ | ⟨rfl, normal⟩
  · exact urgent_found later urgent fun x member => Bool.eq_false_iff.mpr (normal x member)
  · exact oldest_without_urgent fun x member => Bool.eq_false_iff.mpr (normal x member)

/-- Settles O12: the frame the transmitter chooses starts, and the entry it frees is judged and arbitrated. -/
theorem transmitterChoosesFrames : Obligations.TransmitterChoosesFrames := by
  refine ⟨?_, ?_, fun s => ⟨fun forwarding => ?_, fun bytes own => ?_, fun free => ?_⟩⟩
  · intro s before later e urgent sent entry started shown free up inService few small queue chosen turn
    have chosen' := queueHead_chosen (e := e) (before := before) (later := later) (by simpa only [urgent_iff] using chosen)
    have candidate : s.part.ownCandidate = some e := by
      rw [ownCandidate_eq, if_pos ⟨up, few, inService⟩, queue, chosen'.1]
    have next : (s.part.ring.sequence + 1) % 256 = if s.part.ring.sequence = 255 then 0 else s.part.ring.sequence + 1 := by
      split <;> omega
    have start : s.part.transmit = started.afterFreeing := by
      rw [transmit_own free candidate turn, Controller.startOwn, queue, chosen'.2, next]
      rfl
    have kept := (afterFreeing_settles started).kept.port
    have entries : started.afterFreeing.ring.outstanding.map shown = s.part.ring.outstanding.map shown ++ [shown entry] :=
      (Runs.shown (afterFreeing_runs started)).trans List.map_append
    refine ⟨started.afterFreeing, congrArg (fun c => Host.Outcome.next (s.withPart c)) start, rfl, kept.transmitter, kept.streak, kept.sequence,
      kept.forward, entries, fun pending => ?_⟩
    have grows := afterFreeing_grows started pending
    exact ⟨grows.outstanding, grows.queue⟩
  · intro s candidate
    refine ⟨fun free waits idle => ?_, fun free waits able low => ?_, fun empty idle => ?_, fun busy => ?_⟩
    all_goals refine congrArg (fun c => Host.Outcome.next (s.withPart c)) (a₁ := s.part.transmit) ?_
    · exact (transmit_forwarded free waits).1 ((ownCandidate_none s.part).mpr idle)
    · exact (transmit_forwarded free waits).2 (fun none => (ownCandidate_none s.part).mp none able) low
    · exact transmit_idle ((ownCandidate_none s.part).mpr idle) empty
    · exact if_pos busy
  all_goals refine congrArg (fun c => Host.Outcome.next (s.withPart c)) (a₁ := s.part.completeTransmission) ?_
  · rw [Controller.completeTransmission, forwarding]
  · rw [Controller.completeTransmission, own]
  · rw [Controller.completeTransmission, free]

end Sys2Proof.Machine
end

section
/-! SUPPORT. The entries that leave the outstanding list (O9, R11, R12), and the changes of the ring status (O6, R13, R14). -/
namespace Sys2Proof.Machine

variable {c d : Controller}

/-! ### The outstanding list after an outcome -/

/-- The number and the time of an outstanding entry (R10). -/
def OutEntry.stamp (x : OutEntry) : Nat × Nat := (x.sequence, x.start)

/-- The numbers and times of the outstanding list. -/
def Controller.stamps (c : Controller) : List (Nat × Nat) := c.ring.outstanding.map OutEntry.stamp

theorem Changes.stamps (h : Changes c d) : d.stamps = c.stamps := by
  refine h.same (f := Controller.stamps) fun a b step => ?_
  cases step with
  | relabelOut f same =>
    show (a.ring.outstanding.map f).map OutEntry.stamp = _
    rw [List.map_map]
    refine List.map_congr_left fun x _ => ?_
    obtain ⟨sequence, start, -⟩ := same x
    exact Prod.ext sequence start
  | _ => rfl

theorem sequences_of_stamps (h : d.stamps = c.stamps.drop k) :
    d.ring.outstanding.map OutEntry.sequence = (c.ring.outstanding.map OutEntry.sequence).drop k := by
  have := congrArg (List.map Prod.fst) h
  rwa [Controller.stamps, Controller.stamps, List.map_drop, List.map_map, List.map_map] at this

theorem popOldest_cons {e : OutEntry} {rest : List OutEntry} (oldest : c.ring.outstanding = e :: rest) (delivered : Bool) :
    c.popOldest delivered = (c.setOutstanding rest).outcome e delivered := by
  rw [Controller.popOldest, oldest]

/-- The oldest entry leaves the list (R11). -/
theorem popOldest_stamps (c : Controller) (delivered : Bool) : (c.popOldest delivered).stamps = c.stamps.tail := by
  rcases oldest : c.ring.outstanding with _ | ⟨e, rest⟩
  · rw [Controller.popOldest, oldest, Controller.stamps, oldest]
    rfl
  · rw [popOldest_cons oldest, (outcome_settles _ _ _).changes.stamps, Controller.stamps, Controller.stamps, oldest]
    rfl

theorem popLost_stamps (k : Nat) (c : Controller) : (Controller.popLost k c).stamps = c.stamps.drop k := by
  induction k generalizing c with
  | zero => rfl
  | succ k ih =>
    show (Controller.popLost k (c.popOldest false)).stamps = _
    rw [ih, popOldest_stamps, List.drop_tail]

theorem matchReturn_found {sequence k : Nat} (taken : Bool)
    (found : (c.ring.outstanding.map OutEntry.sequence).findIdx? (· == sequence) = some k) :
    c.matchReturn sequence taken = (Controller.popLost k c).popOldest taken := by
  have found' : (c.ring.outstanding.findIdx? fun e => e.sequence == sequence) = some k := by
    rw [← found, List.findIdx?_map]
    rfl
  rw [Controller.matchReturn, found']

theorem matchReturn_unmatched {sequence : Nat} (taken : Bool) (none : ∀ e ∈ c.ring.outstanding, e.sequence ≠ sequence) :
    c.matchReturn sequence taken = c := by
  have absent : (c.ring.outstanding.findIdx? fun e => e.sequence == sequence) = Option.none :=
    List.findIdx?_eq_none_iff.mpr fun e member => by simpa using none e member
  rw [Controller.matchReturn, absent]

/-- A frame of the part's own is stripped and matched (R2, R11). -/
theorem exec_returnMatching {s : State} {destination kind sequence : Byte} {payload : List Byte} {trailer : Byte}
    (inService : s.part.bypass = false) (short : payload.length ≤ 200) :
    exec (.returnMatching destination kind sequence payload trailer) s =
      .next (s.withPart (s.part.matchReturn sequence.toNat (trailer.getLsbD 0 || destination == 63))) := by
  have own : (s.part.ring.nodeAddress.setWidth 8 : Byte).toNat = s.part.ring.nodeAddress.toNat := by
    rw [BitVec.toNat_setWidth]
    exact Nat.mod_eq_of_lt (Nat.lt_of_lt_of_le s.part.ring.nodeAddress.isLt (by decide))
  have received (f : Frame) (source : f.header.source = s.part.ring.nodeAddress.setWidth 8) (payload : f.payload.length ≤ 200) :
      s.part.receiveFrame f = s.part.matchReturn f.header.sequence.toNat (takenMark f.header || f.header.destination == 63) := by
    rw [Controller.receiveFrame, inService, if_neg Bool.false_ne_true,
      if_neg (show ¬Config.maxPayload < f.payload.length from Nat.not_lt.mpr payload), Controller.accept, source, if_pos own]
  exact congrArg (fun c => Host.Outcome.next (s.withPart c))
    (received { header := { destination, source := _, sequence, trailer }, kind, payload } rfl short)

/-! ### The return timeout (R12) -/

/-- An entry's age has reached the ring return time, by its number and time (R12). -/
def Controller.late (c : Controller) (x : Nat × Nat) : Bool := decide (c.line.items.returnTime ≤ c.ring.clock - x.2)

theorem popOldest_late (c : Controller) (delivered : Bool) : (c.popOldest delivered).late = c.late := by
  have kept := popOldest_kept c delivered
  funext x
  rw [Controller.late, kept.store.items, kept.port.clock, Controller.late]

theorem expireDepth_stamps (k : Nat) (c : Controller) (enough : c.stamps.length ≤ k) :
    (Controller.expireDepth k c).stamps = c.stamps.dropWhile c.late := by
  induction k generalizing c with
  | zero =>
    have empty := List.length_eq_zero_iff.mp (Nat.le_zero.mp enough)
    rw [Controller.expireDepth, empty]
    rfl
  | succ k ih =>
    rcases oldest : c.ring.outstanding with _ | ⟨e, rest⟩
    · rw [Controller.expireDepth, oldest, Controller.stamps, oldest]
      rfl
    · have stamps : c.stamps = e.stamp :: rest.map OutEntry.stamp := by rw [Controller.stamps, oldest]; rfl
      rw [Controller.expireDepth, oldest, stamps]
      by_cases expired : c.late e.stamp = true
      · have tail := popOldest_stamps c false
        rw [stamps, List.tail_cons] at tail
        have fewer : (c.popOldest false).stamps.length ≤ k := by
          rw [tail]
          rw [stamps, List.length_cons] at enough
          omega
        rw [List.dropWhile_cons_of_pos expired, ← tail, ← popOldest_late c false, ← ih _ fewer]
        exact congrArg Controller.stamps (if_pos expired)
      · rw [List.dropWhile_cons_of_neg expired, ← stamps]
        exact congrArg Controller.stamps (if_neg expired)

theorem expire_popOldest {e : OutEntry} {rest : List OutEntry} (oldest : c.ring.outstanding = e :: rest)
    (expired : c.line.items.returnTime ≤ c.ring.clock - e.start) : c.expire = (c.popOldest false).expire := by
  have length : (c.popOldest false).ring.outstanding.length = rest.length := by
    have := congrArg List.length (popOldest_stamps c false)
    rw [Controller.stamps, Controller.stamps, oldest] at this
    simpa using this
  have late : c.expired e = true := decide_eq_true expired
  unfold Controller.expire
  rw [length, oldest, List.length_cons, Controller.expireDepth, oldest]
  exact if_pos late

/-- Settles O9: the outstanding list loses its oldest entries one after another, and no outcome changes its numbers and times. -/
theorem outstandingEntriesRemoved : Obligations.OutstandingEntriesRemoved := by
  refine ⟨fun destination kind sequence payload trailer s inService short => ⟨fun k found => ?_, fun none => ?_⟩, fun s => ?_,
    fun d k n p m s untaken e rest inService oldest short number unmarked unicast gone => ?_⟩
  · refine ⟨_, exec_returnMatching inService short, ?_, (matchReturn_kept _ _ _).port.forward⟩
    rw [matchReturn_found _ found]
    refine sequences_of_stamps ?_
    rw [popOldest_stamps, popLost_stamps, List.tail_drop]
  · rw [exec_returnMatching inService short, matchReturn_unmatched _ none]
    rfl
  · refine ⟨s.part.expire, rfl, ?_⟩
    have left := congrArg (List.map Prod.fst) (expireDepth_stamps s.part.ring.outstanding.length s.part (List.length_map _).le)
    rw [Controller.stamps, Controller.stamps, List.dropWhile_map, List.map_map, List.map_map] at left
    exact left
  · have mark : (m.getLsbD 0 || d == 63) = false := by
      have other : (d == 63) = false := by
        rw [beq_eq_false_iff_ne]
        rintro rfl
        exact unicast rfl
      rw [unmarked, other]
      rfl
    have first : (s.part.ring.outstanding.map OutEntry.sequence).findIdx? (· == n.toNat) = some 0 := by
      rw [oldest, List.map_cons, List.findIdx?_cons, number, if_pos (beq_self_eq_true _)]
    have removed : untaken = s.withPart (s.part.popOldest false) := by
      rw [exec_returnMatching inService short, matchReturn_found _ first, mark] at gone
      exact (Host.Outcome.next.inj gone).symm
    refine ⟨fun destination kind sequence payload trailer short' other later => ?_, fun expired => ?_⟩
    · have inService' : untaken.part.bypass = false := by
        rw [removed]
        exact (bypass_of_nodeAddress (popOldest_kept s.part false).port.nodeAddress).trans inService
      rw [exec_returnMatching inService short', exec_returnMatching inService' short', removed]
      refine congrArg (fun c => Host.Outcome.next (s.withPart c)) ?_
      have rests : (s.part.popOldest false).ring.outstanding.map OutEntry.sequence = rest.map OutEntry.sequence := by
        have := sequences_of_stamps (k := 1) ((popOldest_stamps s.part false).trans List.drop_one.symm)
        rwa [oldest] at this
      obtain ⟨x, member, same⟩ := later
      obtain ⟨k, found⟩ := Option.isSome_iff_exists.mp (show ((rest.map OutEntry.sequence).findIdx? (· == sequence.toNat)).isSome = true by
        rw [List.findIdx?_isSome, List.any_map, List.any_eq_true]
        exact ⟨x, member, beq_iff_eq.mpr same⟩)
      have here : (s.part.ring.outstanding.map OutEntry.sequence).findIdx? (· == sequence.toNat) = some (k + 1) := by
        rw [oldest, List.map_cons, List.findIdx?_cons, if_neg (by rw [beq_iff_eq]; exact fun same => other same.symm), found]
        rfl
      rw [matchReturn_found _ here, ← rests] at *
      exact (matchReturn_found _ found).symm
    · rw [removed]
      exact congrArg (fun c => Host.Outcome.next (s.withPart c)) (expire_popOldest oldest expired)

/-! ### The ring status (R13, R14) -/

theorem flushOutstanding_empty (c : Controller) : c.flushOutstanding.ring.outstanding = [] := by
  have stamps := popLost_stamps c.ring.outstanding.length c
  have none : c.stamps.drop c.ring.outstanding.length = [] := List.drop_of_length_le (List.length_map _).le
  rw [none] at stamps
  exact List.map_eq_nil_iff.mp stamps

/-- A line that is not STOPPING keeps its state through every change but those of Line Control (R58, R171). -/
theorem Changes.line (h : Changes c d) (moving : c.line.state ≠ .stopping) : d.line = c.line := by
  refine h.keep (p := fun x => x.line = c.line) (fun a b step same => ?_) rfl
  cases step with
  | drained stops => exact absurd (same ▸ stops.1) moving
  | _ => exact same

theorem popOldest_line (moving : c.line.state ≠ .stopping) (delivered : Bool) : (c.popOldest delivered).line = c.line := by
  unfold Controller.popOldest
  split
  · rfl
  · next e rest oldest => exact (outcome_settles (c.setOutstanding rest) e delivered).changes.line moving

theorem popLost_line (k : Nat) (c : Controller) (moving : c.line.state ≠ .stopping) : (Controller.popLost k c).line = c.line := by
  induction k generalizing c with
  | zero => rfl
  | succ k ih =>
    have first := popOldest_line moving false
    exact (ih _ (by rw [first]; exact moving)).trans first

/-- A cause is made present (R172). -/
def LineControl.withCause (l : LineControl) : HoldCause → LineControl
  | .lineHold => { l with causeLineHold := true }
  | .ring => { l with causeRing := true }

theorem setCause_line (c : Controller) (cause : HoldCause) : (c.setCause cause true).line = c.line.withCause cause := by cases cause <;> rfl

theorem withCause_state (l : LineControl) (cause : HoldCause) : (l.withCause cause).state = l.state := by cases cause <;> rfl

/-- Entry to HOLDING keeps the hold-from state and makes the cause present (R172). -/
theorem enterHolding_line (c : Controller) (cause : HoldCause) :
    (c.enterHolding cause).line = { c.line with state := .holding, holdFrom := c.line.state }.withCause cause := by
  let c1 := ({ c with line := { c.line with holdFrom := c.line.state, state := .holding } } : Controller).setCause cause true
  have holds : c1.line.state = .holding := (congrArg LineControl.state (setCause_line _ cause)).trans (withCause_state _ cause)
  have chain : Changes c1 (c.enterHolding cause) :=
    (((purge_settles c1).trans (foldl_settles jacketHold_settles jacketNumbers c1.purge)).changes.trans (judge_changes false _)).trans
      (raise_settles _ _ _ _).changes
  exact (chain.line (by rw [holds]; decide)).trans (setCause_line _ cause)

theorem addCause_line (c : Controller) (cause : HoldCause) : (c.addCause cause).line =
    (if c.line.state = .holding then c.line else { c.line with state := .holding, holdFrom := c.line.state }).withCause cause := by
  unfold Controller.addCause
  split
  · exact setCause_line c cause
  · exact enterHolding_line c cause

/-- Settles O6: the ring's changes to DOWN and UP. -/
theorem ringStatusChanges : Obligations.RingStatusChanges := by
  refine ⟨fun s => ⟨fun inService up unlocked long => ?_, fun idle => ?_⟩, fun s => ⟨fun inService down locked long => ?_, fun idle => ?_⟩⟩
  · have lost : s.part.lossReached = true := by
      rw [Controller.lossReached, up, unlocked]
      exact decide_eq_true long
    have down : s.part.ringGoesDown = ((s.part.setRingStatus .down).addCause .ring).flushOutstanding :=
      if_neg (ne_true_of_eq_false inService)
    have kept := ringGoesDown_kept s.part
    have line := addCause_line (s.part.setRingStatus .down) .ring
    have holding : ((s.part.setRingStatus .down).addCause .ring).line.state = .holding := by
      rw [line, withCause_state]
      split
      · next holds => exact holds
      · rfl
    have final : s.part.ringGoesDown.line = ((s.part.setRingStatus .down).addCause .ring).line := by
      rw [down]
      exact popLost_line _ _ (by rw [holding]; decide)
    refine ⟨s.part.ringGoesDown, ?_, kept.port.status, ?_, ?_, ?_, ?_, kept.store.tables, kept.port.forward, kept.port.sequence⟩
    · exact congrArg (fun c => Host.Outcome.next (s.withPart c)) (if_pos lost)
    · rw [final, holding]
    · rw [final, line]
      rfl
    · rw [final, line]
      split <;> rfl
    · rw [down]
      exact flushOutstanding_empty _
  · have stays : ¬s.part.lossReached = true := by
      rw [Controller.lossReached, Bool.and_eq_true, Bool.and_eq_true, beq_iff_eq, Bool.not_eq_true', decide_eq_true_iff]
      rintro ⟨⟨up, unlocked⟩, long⟩
      rcases idle with down | locked | short
      · rw [down] at up
        cases up
      · rw [locked] at unlocked
        cases unlocked
      · exact absurd long (Nat.not_le.mpr short)
    exact congrArg (fun c => Host.Outcome.next (s.withPart c)) (if_neg stays)
  · have reached : s.part.lockReached = true := by
      rw [Controller.lockReached, down, locked]
      exact decide_eq_true long
    have up : s.part.ringGoesUp = ((s.part.setRingStatus .up).setCause .ring false).raise .ringRestored 0 0 :=
      if_neg (ne_true_of_eq_false inService)
    have only := raise_onlyPlaces ((s.part.setRingStatus .up).setCause .ring false) .ringRestored 0 0
    have status := congrArg RingPort.status only.ring
    have outstanding := congrArg RingPort.outstanding only.ring
    rw [← up] at only status outstanding
    refine ⟨s.part.ringGoesUp, ?_, status, only.line, ?_, only.tables, only.records, only.jackets, outstanding⟩
    · exact congrArg (fun c => Host.Outcome.next (s.withPart c)) (if_pos reached)
    · rw [up]
      exact raise_reported _ _ _ _
  · have stays : ¬s.part.lockReached = true := by
      rw [Controller.lockReached, Bool.and_eq_true, Bool.and_eq_true, beq_iff_eq, decide_eq_true_iff]
      rintro ⟨⟨down, locked⟩, long⟩
      rcases idle with up | unlocked | short
      · rw [up] at down
        cases down
      · rw [unlocked] at locked
        cases locked
      · exact absurd long (Nat.not_le.mpr short)
    exact congrArg (fun c => Host.Outcome.next (s.withPart c)) (if_neg stays)

end Sys2Proof.Machine
end

section
/-! SUPPORT. Entry to HOLDING (O3, O4, R16, R115, R172): the orders that stay owed, and the jackets that vent. -/
namespace Sys2Proof.Machine

variable {c d : Controller}

/-! ### Orders owed in a hold (R7, R16) -/

/-- The line is HOLDING, and the record in a slot, whose release is not pending, stands in this state and owes these orders. -/
structure OwesStill (slot : Nat) (state : RecordState) (orders : List Order) (c : Controller) : Prop where
  holding : c.line.state = .holding
  owes : ∃ r, c.recordAt slot = some r ∧ r.releasePending = false ∧ r.state = state ∧ orders ⊆ r.owedOrders

section Owes
variable {slot : Nat} {state : RecordState} {orders : List Order}

theorem OwesStill.of_same (h : OwesStill slot state orders c) (line : d.line = c.line) (records : d.records = c.records) :
    OwesStill slot state orders d :=
  ⟨by rw [line]; exact h.holding, by rw [Controller.recordAt, records]; exact h.owes⟩

theorem OnlyPlaces.owesStill (only : OnlyPlaces c d) (h : OwesStill slot state orders c) : OwesStill slot state orders d :=
  h.of_same only.line only.records

/-- A change of a record that leaves its slot, its state and its release, and takes none of these orders. -/
theorem OwesStill.updRecord (h : OwesStill slot state orders c) (s : Nat) {f : Record → Record}
    (keeps : ∀ r, (f r).slot = r.slot ∧ (f r).releasePending = r.releasePending ∧ (f r).state = r.state)
    (owed : slot = s → ∀ r, orders ⊆ r.owedOrders → orders ⊆ (f r).owedOrders) : OwesStill slot state orders (c.updRecord s f) := by
  obtain ⟨r, here, free, stands, owes⟩ := h.owes
  refine ⟨h.holding, ?_⟩
  by_cases same : slot = s
  · refine ⟨f r, ?_, (keeps r).2.1.trans free, (keeps r).2.2.trans stands, owed same r owes⟩
    rw [← same, recordAt_updRecord c slot f fun r => (keeps r).1, here]
    rfl
  · exact ⟨r, (recordAt_updRecord_other c same fun r => (keeps r).1).trans here, free, stands, owes⟩

theorem order_holdSet (o : Order) (serial : Serial) : (o.body serial).holdSet = true := by cases o <;> rfl

theorem hasRoom_of_hold (holding : c.line.state = .holding) {b : Body} (held : b.holdSet = true) : ¬c.hasRoom b = true := fun room =>
  ((hasRoom_iff c b).mp room).1 ⟨holding, held⟩

theorem dropRecord_other (c : Controller) {s : Nat} (other : slot ≠ s) : (c.dropRecord s).recordAt slot = c.recordAt slot := by
  show (c.records.filter fun r => r.slot != s).find? _ = c.records.find? _
  rw [List.find?_filter]
  congr 1
  funext r
  by_cases here : r.slot = slot
  · simp [here, other]
  · simp [here]

/-- In a hold no step of the arbitration places an order (R7). -/
theorem Micro.owesStill (step : Micro c d) (h : OwesStill slot state orders c) : OwesStill slot state orders d := by
  cases step with
  | places places => exact places.only.owesStill h
  | command n k owed room => exact h.of_same rfl rfl
  | order s r o rest here owed room => exact absurd room (hasRoom_of_hold h.holding (order_holdSet o r.serial))
  | result s r l here =>
    exact OwesStill.updRecord (c := c.enqueue _ _) (h.of_same rfl rfl) s (fun _ => ⟨rfl, rfl, rfl⟩) fun _ _ => id
  | drop s r here pending =>
    obtain ⟨x, there, free, owes⟩ := h.owes
    have other : slot ≠ s := by
      rintro rfl
      rw [there] at here
      cases here
      rw [pending] at free
      cases free
    exact ⟨h.holding, x, (dropRecord_other c other).trans there, free, owes⟩
  | withdraw s gone => exact h.of_same rfl rfl
  | drained stopping empty =>
    rw [h.holding] at stopping
    cases stopping

theorem Runs.owesStill (run : Runs c d) (h : OwesStill slot state orders c) : OwesStill slot state orders d :=
  run.keep (fun _ _ => Micro.owesStill) h

theorem withdrawLoop_keep {p : Controller → Prop} {arb : Controller → Controller} (erase : ∀ c q, p c → p (c.setQueue q))
    (judge : ∀ c, p c → p (c.judge true)) (arbitrate : ∀ c, p c → p (arb c)) (test : QueueEntry → Bool) (fuel : Nat) (c : Controller)
    (h : p c) : p (Controller.withdrawLoop arb test fuel c) := by
  induction fuel generalizing c with
  | zero => exact h
  | succ fuel ih =>
    unfold Controller.withdrawLoop
    split
    · exact ih _ (arbitrate _ (judge _ (erase _ _ h)))
    · exact h

theorem dropCommands_owesStill (n : JacketNo) (test : Command → Bool) (h : OwesStill slot state orders c) :
    OwesStill slot state orders (c.dropCommands n test) :=
  withdrawLoop_keep (p := OwesStill slot state orders) (fun _ _ h => h.of_same rfl rfl) (fun c => (judge_onlyPlaces true c).owesStill)
    (fun c => Runs.owesStill (arbitrate_runs c)) _ _ _ (h.of_same rfl rfl)

theorem offerCommand_same (c : Controller) (n : JacketNo) (k : Command) :
    (c.offerCommand n k).line = c.line ∧ (c.offerCommand n k).records = c.records ∧ (c.offerCommand n k).tables = c.tables ∧
      (c.offerCommand n k).verification = c.verification := by
  unfold Controller.offerCommand
  split
  · have only := judge_onlyPlaces false ((c.enqueue (.command n k) (.jacket n)).updJacket n fun j => { j with owedCommand := none })
    exact ⟨only.line, only.records, only.tables, only.verification⟩
  · exact ⟨rfl, rfl, rfl, rfl⟩

theorem ventInto_owesStill (n : JacketNo) (reason : RecoverReason) (h : OwesStill slot state orders c) :
    OwesStill slot state orders (c.ventInto n reason) := by
  obtain ⟨line, records, -⟩ := offerCommand_same c n .vent
  exact (dropCommands_owesStill n Command.isSet (h.of_same line records)).of_same rfl rfl

theorem jacketHold_owesStill (n : JacketNo) (h : OwesStill slot state orders c) : OwesStill slot state orders (c.jacketHold n) := by
  unfold Controller.jacketHold
  split
  · exact ventInto_owesStill n .hold h
  · exact h.of_same rfl rfl
  · exact h

theorem foldl_keep {α : Type} {p : Controller → Prop} {f : Controller → α → Controller} (step : ∀ c a, p c → p (f c a)) (l : List α)
    (c : Controller) (h : p c) : p (l.foldl f c) := by
  induction l generalizing c with
  | nil => exact h
  | cons a l ih => exact ih _ (step c a h)

/-! ### The purge gives the orders back (R16) -/

theorem restoreOwed_owesStill (e : QueueEntry) (h : OwesStill slot state orders c) : OwesStill slot state orders (Controller.restoreOwed e c) := by
  unfold Controller.restoreOwed
  split
  · split
    · exact h.updRecord _ (fun _ => ⟨rfl, rfl, rfl⟩) fun _ _ owed => List.subset_cons_of_subset _ owed
    · exact h
  · exact h.of_same rfl rfl
  · unfold Controller.restoreInfeed
    split
    · exact h.of_same rfl rfl
    · exact h
  · exact h

theorem body_order (o : Order) (serial : Serial) : (o.body serial).order? = some o := by cases o <;> rfl

/-- The record of a removed order owes it again. -/
theorem restoreOwed_owes {e : QueueEntry} {o : Order} {serial : Serial} (owner : e.owner = .record slot) (body : e.body = o.body serial)
    (h : OwesStill slot state [] c) : OwesStill slot state [o] (Controller.restoreOwed e c) := by
  have restored : Controller.restoreOwed e c = c.restoreOrder slot o := by
    rw [Controller.restoreOwed.eq_def, owner]
    simp only [body, body_order]
  obtain ⟨r, here, free, stands, -⟩ := h.owes
  rw [restored]
  refine ⟨h.holding, { r with owedOrders := o :: r.owedOrders }, ?_, free, stands, List.cons_subset_cons o (List.nil_subset _)⟩
  refine (recordAt_updRecord c slot (fun r => { r with owedOrders := o :: r.owedOrders }) fun _ => rfl).trans ?_
  rw [here]
  rfl

theorem foldr_restoreOwed_owes {e : QueueEntry} {o : Order} {serial : Serial} {l : List QueueEntry} (member : e ∈ l)
    (owner : e.owner = .record slot) (body : e.body = o.body serial) (h : OwesStill slot state [] c) :
    OwesStill slot state [o] (l.foldr Controller.restoreOwed c) := by
  have base (l : List QueueEntry) : OwesStill slot state [] (l.foldr Controller.restoreOwed c) := by
    induction l with
    | nil => exact h
    | cons x l ih => exact restoreOwed_owesStill x ih
  induction l with
  | nil => cases member
  | cons x l ih =>
    rcases List.mem_cons.mp member with rfl | later
    · exact restoreOwed_owes owner body (base l)
    · exact restoreOwed_owesStill x (ih later)

theorem purge_owes {e : QueueEntry} {o : Order} {serial : Serial} (member : e ∈ c.ring.queue) (owner : e.owner = .record slot)
    (body : e.body = o.body serial) (h : OwesStill slot state [] c) : OwesStill slot state [o] c.purge := by
  have removed : e ∈ c.ring.queue.filter fun e => e.body.holdSet :=
    List.mem_filter.mpr ⟨member, by rw [body]; exact order_holdSet o serial⟩
  unfold Controller.purge
  dsimp only
  rw [if_neg (List.ne_nil_of_mem removed)]
  refine Runs.owesStill (afterFreeing_runs _) ?_
  refine foldl_keep (fun c e h => ?_) _ _ (foldl_keep (fun c cls h => ?_) _ _
    (foldr_restoreOwed_owes removed owner body (h.of_same rfl rfl)))
  · unfold Controller.dropRecordless
    split
    · exact (raise_onlyPlaces _ _ _ _).owesStill h
    · exact h
  · unfold Controller.restoreNotice
    dsimp only
    split
    · exact h
    · exact h.of_same rfl rfl

end Owes

/-! ### The jackets at a hold (R115) -/

section Fold
variable {f : Controller → JacketNo → Controller} {n : JacketNo}

/-- One jacket's step among the eight: the others come before and after it. -/
theorem foldl_at {R : Controller → Controller → Prop} (refl : ∀ c, R c c) (trans : ∀ {a b c}, R a b → R b c → R a c)
    (other : ∀ c m, m ≠ n → R c (f c m)) (c : Controller) : ∃ x, R c x ∧ R (f x n) (jacketNumbers.foldl f c) := by
  have skips (l : List JacketNo) (absent : n ∉ l) (c : Controller) : R c (l.foldl f c) := by
    induction l generalizing c with
    | nil => exact refl c
    | cons m l ih =>
      rw [List.mem_cons, not_or] at absent
      exact trans (other c m fun same => absent.1 same.symm) (ih absent.2 _)
  have distinct : jacketNumbers.Nodup := by decide
  have all : ∀ m : JacketNo, m ∈ jacketNumbers := by decide
  obtain ⟨before, after, split⟩ := List.append_of_mem (all n)
  rw [split] at distinct ⊢
  obtain ⟨-, distinct, apart⟩ := List.nodup_append.mp distinct
  rw [List.foldl_append, List.foldl_cons]
  exact ⟨_, skips before (fun member => apart n member n List.mem_cons_self rfl) c,
    skips after (List.nodup_cons.mp distinct).1 _⟩

end Fold

theorem offerVent_keepsCommand (c : Controller) (m n : JacketNo) : KeepsCommand n .vent c (c.offerCommand m .vent) := by
  refine ⟨offerCommand_sameButOwed c m .vent, fun made => ?_⟩
  by_cases same : n = m
  · rw [same]
    exact offerCommand_commanded c m .vent
  · rcases made with owed | ⟨e, member, owner, body⟩
    · exact .inl ((congrArg Jacket.owedCommand (offerCommand_otherJacket c .vent same)).trans owed)
    · exact .inr ⟨e, offerCommand_stays member m .vent, owner, body⟩

/-- The commands of another jacket stand when a jacket's commands stop standing (R94). -/
theorem dropCommands_keepsOther {n m : JacketNo} (other : n ≠ m) (c : Controller) (test : Command → Bool) (k : Command) :
    KeepsCommand n k c (c.dropCommands m test) := by
  have filtered : KeepsCommand n k c (c.updJacket m fun j => { j with owedCommand := j.owedCommand.filter fun k => !test k }) := by
    refine ⟨updOwed_sameButOwed c m _, Or.imp (fun owed => ?_) id⟩
    rwa [jacket_updJacket, if_neg other]
  refine filtered.trans (withdraw_keepsCommand (fun e owner _ => ?_) _)
  have apart : (e.owner == .jacket m) = false := by
    rw [owner, beq_eq_false_iff_ne]
    exact fun same => other (Owner.jacket.inj same)
  rw [QueueEntry.isCommandOf, apart, Bool.false_and]

theorem makeVent_keepsVent (c : Controller) (m n : JacketNo) : KeepsCommand n .vent c (c.makeVent m) := by
  refine (offerVent_keepsCommand c m n).trans ?_
  by_cases same : n = m
  · rw [same]
    exact dropCommands_keepsCommand _ rfl
  · exact dropCommands_keepsOther same _ _ _

/-- Jacket n stands but for its owed command, and a VENT it has made still is. -/
def VentStands (n : JacketNo) (c d : Controller) : Prop :=
  d.jacket n = { c.jacket n with owedCommand := (d.jacket n).owedCommand } ∧ (c.Commanded n .vent → d.Commanded n .vent)

theorem VentStands.trans {n : JacketNo} {a b c : Controller} (h : VentStands n a b) (k : VentStands n b c) : VentStands n a c :=
  ⟨by rw [k.1, h.1], fun made => k.2 (h.2 made)⟩

theorem KeepsCommand.ventStands {n : JacketNo} (h : KeepsCommand n .vent c d) : VentStands n c d := ⟨h.jackets n, h.commanded⟩

theorem updJacket_ventStands {n m : JacketNo} (other : m ≠ n) (c : Controller) (f : Jacket → Jacket) : VentStands n c (c.updJacket m f) := by
  have same : (c.updJacket m f).jacket n = c.jacket n := by rw [jacket_updJacket, if_neg (Ne.symm other)]
  refine ⟨by rw [same], Or.imp (fun owed => ?_) id⟩
  rw [same]
  exact owed

theorem ventInto_ventStands {n m : JacketNo} (other : m ≠ n) (c : Controller) (reason : RecoverReason) : VentStands n c (c.ventInto m reason) :=
  (makeVent_keepsVent c m n).ventStands.trans (updJacket_ventStands other _ _)

theorem jacketHold_ventStands {n m : JacketNo} (other : m ≠ n) (c : Controller) : VentStands n c (c.jacketHold m) := by
  unfold Controller.jacketHold
  split
  · exact ventInto_ventStands other c .hold
  · exact updJacket_ventStands other c _
  · exact ⟨rfl, id⟩

theorem jacketHold_running {n : JacketNo} {k : BlockKind} (running : (c.jacket n).state = .running k) :
    c.jacketHold n = c.ventInto n .hold := by
  rw [Controller.jacketHold, running]

/-- A jacket that was RUNNING vents into RECOVERING at a hold (R115). -/
theorem holdJackets_vents {n : JacketNo} {k : BlockKind} (running : (c.jacket n).state = .running k) :
    ((jacketNumbers.foldl Controller.jacketHold c).jacket n).state = .recovering .hold ∧
      ((jacketNumbers.foldl Controller.jacketHold c).jacket n).elapsed = 0 ∧
      (jacketNumbers.foldl Controller.jacketHold c).Commanded n .vent := by
  obtain ⟨x, before, after⟩ := foldl_at (n := n) (f := Controller.jacketHold) (R := VentStands n) (fun _ => ⟨rfl, id⟩) VentStands.trans
    (fun c m other => jacketHold_ventStands other c) c
  have still : (x.jacket n).state = .running k := by rw [before.1]; exact running
  have left := ventInto_jacket x n .hold
  rw [← jacketHold_running still] at left
  refine ⟨?_, ?_, after.2 ?_⟩
  · rw [after.1, left]
  · rw [after.1, left]
  · rw [jacketHold_running still]
    exact ventInto_commanded x n .hold

theorem jacketHold_store (c : Controller) (n : JacketNo) : (c.jacketHold n).verification = c.verification := by
  unfold Controller.jacketHold
  split
  · exact (makeVent_serves c n).verification
  · rfl
  · rfl

/-! ### HOLD_ASSERTED (R172) -/

/-- The line is HOLDING and the cause is present: what the purge begins with (R172). -/
def Controller.holdBegun (c : Controller) (cause : HoldCause) : Controller :=
  ({ c with line := { c.line with holdFrom := c.line.state, state := .holding } } : Controller).setCause cause true

theorem holdBegun_eq (c : Controller) (cause : HoldCause) :
    c.holdBegun cause = { c with line := { c.line with holdFrom := c.line.state, state := .holding }.withCause cause } := by cases cause <;> rfl

theorem enterHolding_eq (c : Controller) (cause : HoldCause) : c.enterHolding cause =
    ((jacketNumbers.foldl Controller.jacketHold (c.holdBegun cause).purge).judge false).raise .lineHold 0 cause.code := rfl

/-- Settles O4: the purge gives the removed orders back, and the jackets vent one after another. -/
theorem holdAssertedEntersHolding : Obligations.HoldAssertedEntersHolding := by
  intro s inService moving
  obtain ⟨vented, ventedEq⟩ : ∃ x, x = jacketNumbers.foldl Controller.jacketHold (s.part.holdBegun .lineHold).purge := ⟨_, rfl⟩
  obtain ⟨t, made⟩ : ∃ t, t = s.part.enterHolding .lineHold := ⟨_, rfl⟩
  have after : t = (vented.judge false).raise .lineHold 0 HoldCause.lineHold.code := by rw [made, ventedEq, enterHolding_eq]
  have run : exec .holdAsserted s = .next (s.withPart t) := by
    rw [made]
    exact congrArg (fun c => Host.Outcome.next (s.withPart c)) ((if_neg (ne_true_of_eq_false inService)).trans (if_neg moving))
  have only : OnlyPlaces vented t := by
    rw [after]
    exact (judge_onlyPlaces false vented).trans (raise_onlyPlaces _ _ _ _)
  have line : t.line = { s.part.line with state := .holding, holdFrom := s.part.line.state, causeLineHold := true } := by
    rw [made]
    exact enterHolding_line s.part .lineHold
  have purged := purge_serves (s.part.holdBegun .lineHold)
  have kept : Kept s.part t := by
    have kept := addCause_kept s.part .lineHold
    rwa [Controller.addCause, if_neg moving, ← made] at kept
  refine ⟨t, run, line, ?_, fun n k running => ?_, fun e r o member sound owner here free body => ?_, ?_, kept.store.tables, ?_, ?_⟩
  · have quiet : s.part.HoldQuiet := fun holding => absurd holding moving
    have holding : t.line.state = .holding := by rw [line]
    rw [made] at holding ⊢
    exact (enterHolding_acts (adm := True) s.part .lineHold moving).moves.keep (fun _ _ => Move.holdQuiet) quiet holding
  · have running' : ((s.part.holdBegun .lineHold).purge.jacket n).state = .running k := by
      rw [purged.jackets n]
      exact running
    obtain ⟨state, elapsed, commanded⟩ := holdJackets_vents running'
    rw [← ventedEq] at state elapsed commanded
    exact ⟨by rw [only.jacket, state], by rw [only.jacket, elapsed], only.keepsCommand.commanded commanded⟩
  · have base : OwesStill r.slot r.state [] (s.part.holdBegun .lineHold) := ⟨rfl, r, here, free, rfl, List.nil_subset _⟩
    have owes := foldl_keep (fun c n h => jacketHold_owesStill n h) jacketNumbers _
      (purge_owes (c := s.part.holdBegun .lineHold) member owner body base)
    rw [← ventedEq] at owes
    obtain ⟨r', there, -, state, owed⟩ := (only.owesStill owes).owes
    exact ⟨r', there, state, owed (List.mem_singleton_self o)⟩
  · rw [after]
    exact raise_reported _ _ _ _
  · rw [only.verification, ventedEq]
    exact foldl_keep (p := fun x => x.verification = s.part.verification) (fun c n h => (jacketHold_store c n).trans h) _ _ purged.verification
  · have chain : Changes (s.part.holdBegun .lineHold) t := by
      rw [after, ventedEq]
      exact (((purge_settles _).trans (foldl_settles jacketHold_settles _ _)).changes.trans (judge_changes false _)).trans
        (raise_settles _ _ _ _).changes
    have stamps := congrArg (List.map Prod.fst) chain.stamps
    rw [Controller.stamps, Controller.stamps, List.map_map, List.map_map] at stamps
    exact stamps

end Sys2Proof.Machine
end

section
/-! SUPPORT. The state after POWER_ON (O3, R18, R169). -/
namespace Sys2Proof.Machine

variable {c : Controller}

theorem purge_of_empty (empty : c.ring.queue = []) : c.purge = c := by
  have none : (c.ring.queue.filter fun e => e.body.holdSet) = [] := by rw [empty]; rfl
  unfold Controller.purge
  exact if_pos none

theorem jacketHold_disabled {n : JacketNo} (disabled : (c.jacket n).state = .disabled) : c.jacketHold n = c := by
  rw [Controller.jacketHold, disabled]

/-- A hold that finds no frame in the queue and every jacket DISABLED (R16, R115). -/
theorem enterHolding_idle (cause : HoldCause) (empty : c.ring.queue = []) (disabled : ∀ n, (c.jacket n).state = .disabled) :
    c.enterHolding cause = ((c.holdBegun cause).judge false).raise .lineHold 0 cause.code := by
  have still : jacketNumbers.foldl Controller.jacketHold (c.holdBegun cause).purge = c.holdBegun cause := by
    rw [purge_of_empty (by rw [holdBegun_eq]; exact empty)]
    refine foldl_keep (p := fun x => x = c.holdBegun cause) (fun x n same => ?_) _ _ rfl
    rw [same]
    exact jacketHold_disabled (by rw [holdBegun_eq]; exact disabled n)
  rw [enterHolding_eq, still]

theorem powerOn_bypass (straps : NodeAddress) : (Controller.powerOn straps).bypass = true ↔ straps = 0 ∨ straps = 63 := by
  rw [Controller.bypass, Bool.or_eq_true, beq_iff_eq, beq_iff_eq]
  rfl

/-- Settles O3: with HOLD asserted the line enters HOLDING from STOPPED, unless the part is in bypass. -/
theorem powerOnState : Obligations.PowerOnState := by
  refine ⟨fun straps s => ⟨.powerOn straps, rfl, rfl, rfl, rfl, rfl, rfl, rfl, rfl, rfl, rfl, rfl, rfl, powerOn_jacket straps, powerOn_verif straps,
    rfl, powerOn_notice straps, rfl⟩, fun straps s => ?_⟩
  by_cases bypass : straps = 0 ∨ straps = 63
  · have idle : poweredOn straps true = .powerOn straps :=
      if_neg fun h => ne_true_of_eq_false h.2 ((powerOn_bypass straps).mpr bypass)
    refine ⟨.powerOn straps, congrArg (fun c => Host.Outcome.next (s.withPart c)) idle, rfl, rfl, rfl, rfl, rfl, ?_⟩
    rw [if_pos bypass]
    exact ⟨rfl, rfl⟩
  · have inService : (Controller.powerOn straps).bypass = false :=
      Bool.eq_false_iff.mpr fun on => bypass ((powerOn_bypass straps).mp on)
    have held : poweredOn straps true = (Controller.powerOn straps).addCause .lineHold := if_pos ⟨rfl, inService⟩
    have entered : (Controller.powerOn straps).addCause .lineHold = (Controller.powerOn straps).enterHolding .lineHold := if_neg nofun
    have line := enterHolding_line (Controller.powerOn straps) .lineHold
    have kept := addCause_kept (Controller.powerOn straps) .lineHold
    have only := (judge_onlyPlaces false ((Controller.powerOn straps).holdBegun .lineHold)).trans
      (raise_onlyPlaces _ .lineHold 0 HoldCause.lineHold.code)
    have idle := enterHolding_idle (c := .powerOn straps) .lineHold rfl fun n => by rw [powerOn_jacket]; rfl
    rw [← idle] at only
    rw [entered] at kept
    refine ⟨_, congrArg (fun c => Host.Outcome.next (s.withPart c)) (held.trans entered), kept.port.nodeAddress, kept.port.status, only.records,
      ?_, kept.store.date, ?_⟩
    · rw [line]
      rfl
    · rw [if_neg bypass]
      refine ⟨?_, ?_, ?_, ?_⟩
      · rw [line]
        rfl
      · rw [line]
        rfl
      · rw [line]
        rfl
      · rw [idle]
        exact raise_reported _ _ _ _

end Sys2Proof.Machine
end

section
/-! SUPPORT. START and STOP (O35, R81, R170, R171). -/
namespace Sys2Proof.Machine

variable {s : State} {h : Header} {c d t : Controller}

/-! ### A command accepted or refused -/

/-- What the answer of an accepted command leaves: frames placed, the reply among them. -/
structure Answered (h : Header) (code : Nat) (d t : Controller) : Prop where
  places : PlacesUnbound (d.setBuffer (.holding (replyTo h 3 none (field1 code)))) t
  replied : t.Replied (replyTo h 3 none (field1 code))
  judged : d.Judged → t.Judged
  notices : HeldAlone d t

/-- An accepted command other than SET NOTICE ENABLES: its action, and the offer of its reply (R181). -/
theorem exec_accepted {i : Instr} {code : Nat} {fields : List Byte} {x : Except Reason Controller}
    (run : exec i s = .next (s.withPart (s.part.receiveFrame (manageFrame h (3 :: fields)))))
    (takes : s.part.Takes h (3 :: fields).length)
    (answer : (s.part.taken (manageFrame h (3 :: fields)).markTaken.wire).judgeRequest (3 :: fields) =
      (s.part.taken (manageFrame h (3 :: fields)).markTaken.wire).commandAnswer code x)
    (ok : x = .ok d) (other : (3 :: fields : List Byte).take 2 ≠ [3, 11]) : ∃ t, exec i s = .next (s.withPart t) ∧ Answered h code d t := by
  have answer := answer.trans (commandAnswer_ok code ok)
  obtain ⟨t, run, made, -, replied⟩ := exec_answered run takes answer
  rw [request_offersReply answer (decide_eq_false other)] at made
  refine ⟨t, run, ?_, replied, fun judged => ?_, ?_⟩
  · rw [made]
    exact offerReply_places _
  · rw [made]
    exact (offerReply_settles _).judged judged
  · rw [made]
    exact (heldAlone_of_notices rfl).trans (offerReply_heldAlone _)

/-- A command refused only answers (R181). -/
theorem exec_refused {i : Instr} {code : Nat} {payload : List Byte} {x : Except Reason Controller} {reason : Reason}
    (run : exec i s = .next (s.withPart (s.part.receiveFrame (manageFrame h payload)))) (takes : s.part.Takes h payload.length)
    (answer : (s.part.taken (manageFrame h payload).markTaken.wire).judgeRequest payload =
      (s.part.taken (manageFrame h payload).markTaken.wire).commandAnswer code x)
    (refused : x = .error reason) : ∃ t : Controller, exec i s = .next (s.withPart t) ∧
      s.part.OnlyAnswers t (manageFrame h payload).markTaken.wire ∧ t.Replied (replyTo h (payloadKind payload) (some reason) (field1 code)) := by
  have answer := answer.trans (commandAnswer_error code refused)
  rw [receiveFrame_request takes] at run
  exact ⟨_, run, answered_onlyAnswers answer (f := none) (.inl rfl) _, (answered_onlyPlaces answer _).replied _ (.inl rfl)⟩

theorem Answered.placed {code : Nat} (h' : Answered h code d t) : OnlyPlaces (d.setBuffer (.holding (replyTo h 3 none (field1 code)))) t :=
  h'.places.only

theorem Answered.line {code : Nat} (h' : Answered h code d t) : t.line = d.line := h'.placed.line
theorem Answered.records {code : Nat} (h' : Answered h code d t) : t.records = d.records := h'.placed.records
theorem Answered.jacket {code : Nat} (h' : Answered h code d t) (n : JacketNo) : t.jacket n = d.jacket n := h'.placed.jacket n
theorem Answered.tables {code : Nat} (h' : Answered h code d t) : t.tables = d.tables := h'.placed.tables
theorem Answered.verification {code : Nat} (h' : Answered h code d t) : t.verification = d.verification := h'.placed.verification
theorem Answered.queue {code : Nat} (h' : Answered h code d t) : d.ring.queue <+: t.ring.queue := h'.placed.queue

theorem Answered.carriesOn {code : Nat} (h' : Answered h code d t) : d.CarriesOn t :=
  ⟨h'.placed.records, h'.placed.jackets, h'.placed.verification, h'.placed.queue⟩

/-! ### START -/

theorem startLine_busy (line : c.line.state = .running ∨ c.line.state = .holding) : c.startLine = .error .lineState := if_pos line

section Start
variable (idle : c.line.state = .stopped ∨ c.line.state = .stopping)
include idle

theorem startLine_checks : c.startLine = if c.line.date = none then .error .noDate else if c.mapComplete = false then .error .noMap
    else if c.ring.status = .down then .error .ringDown else .ok ((c.setLineState .running).judge false).jacketPasses :=
  if_neg (by rcases idle with e | e <;> rw [e] <;> decide)

theorem startLine_ok (dated : c.line.date ≠ none) (complete : c.mapComplete = true) (up : c.ring.status = .up) :
    c.startLine = .ok ((c.setLineState .running).judge false).jacketPasses := by
  rw [startLine_checks idle, if_neg dated, if_neg (ne_false_of_eq_true complete), if_neg (by rw [up]; decide)]

end Start

/-- The line state a START or a STOP has set stands through the judgment and the passes (R58, R81). -/
theorem passes_line (moving : c.line.state ≠ .stopping) : (c.judge false).jacketPasses.line = c.line :=
  ((judge_changes false c).trans (jacketPasses_settles _).changes).line moving

theorem passes_judged (c : Controller) : (c.judge false).jacketPasses.Judged := (jacketPasses_settles _).judged (judge_judged false c)

/-! ### STOP -/

theorem stopLine_busy (other : c.line.state ≠ .running) : c.stopLine = .error .lineState := if_pos other

theorem stopLine_empty (running : c.line.state = .running) (empty : c.records = []) :
    c.stopLine = .ok ((c.setLineState .stopped).judge false) := (if_neg (not_not.mpr running)).trans (if_pos empty)

theorem stopLine_drains (running : c.line.state = .running) (held : c.records ≠ []) :
    c.stopLine = .ok ((c.setLineState .stopping).judge false).jacketPasses := (if_neg (not_not.mpr running)).trans (if_neg held)

theorem jacketPasses_of_no_waiting (empty : c.waitingQueue = []) : c.jacketPasses = c :=
  foldl_keep (p := fun x => x = c) (fun x n same => by rw [same, jacketPass_of_no_waiting empty]) jacketNumbers c rfl

/-- Settles O35: the checks in their order, and the passes behind the new line state. -/
theorem startAndStop : Obligations.StartAndStop := by
  refine ⟨fun s h takes => ?_, fun s h takes => ?_⟩
  · let taken := s.part.taken (manageFrame h [3, 1]).markTaken.wire
    have asked : taken.judgeRequest [3, 1] = taken.commandAnswer 1 taken.startLine := rfl
    refine ⟨fun idle dated complete up => ?_, fun busy => exec_refused (i := .start h []) rfl takes asked (startLine_busy busy),
      fun idle undated => ?_, fun idle dated incomplete => ?_, fun idle dated complete down => ?_⟩
    · obtain ⟨t, run, answered⟩ := exec_accepted (i := .start h []) rfl takes asked (startLine_ok (c := taken) idle dated complete up) (by decide)
      refine ⟨t, run, answered.line.trans (passes_line (c := taken.setLineState .running) nofun), answered.judged (passes_judged _),
        answered.replied, ?_⟩
      have carries := answered.carriesOn
      rw [jacketPasses_eightPasses] at carries
      exact carries
    all_goals refine exec_refused (i := .start h []) rfl takes asked ((startLine_checks (c := taken) idle).trans ?_)
    · exact if_pos undated
    · exact (if_neg dated).trans (if_pos incomplete)
    · exact (if_neg dated).trans ((if_neg (ne_false_of_eq_true complete)).trans (if_pos down))
  · let taken := s.part.taken (manageFrame h [3, 2]).markTaken.wire
    have asked : taken.judgeRequest [3, 2] = taken.commandAnswer 2 taken.stopLine := rfl
    refine ⟨fun running empty => ?_, fun running held sound => ?_,
      fun other => exec_refused (i := .stop h []) rfl takes asked (stopLine_busy other)⟩
    · obtain ⟨t, run, answered⟩ := exec_accepted (i := .stop h []) rfl takes asked (stopLine_empty (c := taken) running empty) (by decide)
      exact ⟨t, run, answered.line.trans (judge_onlyPlaces false _).line, answered.judged (judge_judged false _), answered.replied⟩
    · obtain ⟨t, run, answered⟩ := exec_accepted (i := .stop h []) rfl takes asked (stopLine_drains (c := taken) running held) (by decide)
      have judged := judge_onlyPlaces false (taken.setLineState .stopping)
      have distinct : ((taken.setLineState .stopping).judge false).SlotsDistinct := by
        rw [Controller.SlotsDistinct, judged.records]
        exact sound.2.2.1
      refine ⟨t, run, answered.line.trans ((jacketPasses_offLine distinct).line.trans judged.line), fun empty => ?_,
        answered.judged (passes_judged _), answered.replied, ?_⟩
      · have none : ((taken.setLineState .stopping).judge false).waitingQueue = [] := by
          rw [Controller.waitingQueue, judged.records]
          exact empty
        exact answered.records.trans ((congrArg Controller.records (jacketPasses_of_no_waiting none)).trans judged.records)
      · have carries := answered.carriesOn
        rw [jacketPasses_eightPasses] at carries
        exact carries

end Sys2Proof.Machine
end

section
/-! SUPPORT. Records by their serials and slots (R40), and the release of a record (O34, R58 to R60). -/
namespace Sys2Proof.Machine

variable {c d : Controller} {r : Record} {serial : Serial}

/-! ### The record of a serial and of a slot -/

theorem recordOf_iff (sound : c.RegisterSound) : c.recordOf serial = some r ↔ r ∈ c.records ∧ r.serial = serial := by
  constructor
  · intro found
    exact ⟨List.mem_of_find?_eq_some found, by simpa using List.find?_some found⟩
  · rintro ⟨member, rfl⟩
    have some : (c.recordOf r.serial).isSome = true := (recordOf_isSome c r.serial).mpr ⟨r, member, rfl⟩
    obtain ⟨x, found⟩ := Option.isSome_iff_exists.mp some
    have same : x.serial = r.serial := by simpa using List.find?_some found
    rw [found, List.inj_on_of_nodup_map sound.2.1 (List.mem_of_find?_eq_some found) member same]

theorem recordAt_iff (sound : c.RegisterSound) {slot : Nat} : c.recordAt slot = some r ↔ r ∈ c.records ∧ r.slot = slot := by
  constructor
  · exact fun found => ⟨recordAt_mem found, recordAt_slot found⟩
  · rintro ⟨member, rfl⟩
    exact recordAt_of_mem sound.2.2.1 member

theorem recordAt_of_recordOf (sound : c.RegisterSound) (found : c.recordOf serial = some r) : c.recordAt r.slot = some r :=
  (recordAt_iff sound).mpr ⟨((recordOf_iff sound).mp found).1, rfl⟩

/-- A change of records that leaves their serials and slots leaves the register sound. -/
theorem registerSound_updRecord (sound : c.RegisterSound) (slot : Nat) {f : Record → Record}
    (keeps : ∀ r, (f r).serial = r.serial ∧ (f r).slot = r.slot) : (c.updRecord slot f).RegisterSound := by
  obtain ⟨small, serials, slots, low⟩ := sound
  have slotsSame := map_updRecord c slot f Record.slot fun r => (keeps r).2
  refine ⟨?_, ?_, ?_, fun x member => ?_⟩
  · exact (List.length_map _).trans_le small
  · rw [map_updRecord c slot f Record.serial fun r => (keeps r).1]
    exact serials
  · rw [slotsSame]
    exact slots
  · have listed : x.slot ∈ c.records.map Record.slot := slotsSame ▸ List.mem_map_of_mem member
    obtain ⟨y, here, same⟩ := List.mem_map.mp listed
    rw [← same]
    exact low y here

/-- The record of a serial after a change of it. -/
theorem recordOf_updRecord (sound : c.RegisterSound) (found : c.recordOf serial = some r) {f : Record → Record}
    (keeps : ∀ r, (f r).serial = r.serial ∧ (f r).slot = r.slot) : (c.updRecord r.slot f).recordOf serial = some (f r) := by
  obtain ⟨member, named⟩ := (recordOf_iff sound).mp found
  refine (recordOf_iff (registerSound_updRecord sound r.slot keeps)).mpr ⟨List.mem_map.mpr ⟨r, member, if_pos rfl⟩, ?_⟩
  rw [(keeps r).1, named]

/-! ### The removal of a record (R58) -/

/-- The register without the record in a slot and the queue without its orders, judged afresh (R58, steps 1 to 5). -/
def Controller.removed (arb : Controller → Controller) (c : Controller) (slot : Nat) : Controller :=
  (Controller.withdrawWith arb (QueueEntry.isOrderOf slot) (c.dropRecord slot)).judge false

theorem removeWith_eq (arb : Controller → Controller) (c : Controller) (slot : Nat) :
    Controller.removeWith arb slot c = (c.removed arb slot).finishDrain := rfl

theorem removal_serves {arb : Controller → Controller} (serves : ∀ c, Serves c (arb c)) (c : Controller) (slot : Nat) :
    Serves (c.dropRecord slot) (Controller.removeWith arb slot c) :=
  ((withdrawLoop_serves serves _ _ _).trans (judge_serves _ _)).trans (finishDrain_serves _)

/-- No record carries the serial of the record removed. -/
theorem removal_gone {arb : Controller → Controller} (serves : ∀ c, Serves c (arb c)) (sound : c.RegisterSound)
    (found : c.recordOf serial = some r) : (Controller.removeWith arb r.slot c).recordOf serial = none := by
  obtain ⟨member, named⟩ := (recordOf_iff sound).mp found
  rw [Controller.recordOf, List.find?_eq_none]
  intro x here same
  obtain ⟨y, there, bare⟩ := (removal_serves serves c r.slot).from_record here
  obtain ⟨kept, apart⟩ := List.mem_filter.mp there
  have serials : y.bare.serial = x.bare.serial := congrArg Record.serial bare
  rw [beq_iff_eq] at same
  obtain rfl := List.inj_on_of_nodup_map sound.2.1 kept member (serials.trans (same.trans named.symm))
  simp at apart

/-- The line is the same after the removal while another record stays whose release is not pending, and when the line was not STOPPING. -/
theorem removal_line {arb : Controller → Controller} (serves : ∀ c, Serves c (arb c)) (distinct : c.SlotsDistinct) {slot : Nat}
    (stays : c.line.state ≠ .stopping ∨ ∃ x ∈ c.records, x.slot ≠ slot ∧ x.releasePending = false) :
    (Controller.removeWith arb slot c).line = c.line := by
  have removed := removal_serves serves c slot
  rcases removed.line with same | ⟨stopping, -, empty⟩
  · exact same
  · rcases stays with moving | ⟨x, member, other, free⟩
    · exact absurd stopping moving
    · have dropped : (c.dropRecord slot).SlotsDistinct := List.Nodup.sublist (List.filter_sublist.map Record.slot) distinct
      have standing := removed.standing dropped
      rw [empty] at standing
      have here : x ∈ (c.dropRecord slot).records := List.mem_filter.mpr ⟨member, by simpa using other⟩
      have kept : x.bare ∈ ((c.dropRecord slot).records.map Record.bare).filter Record.stays :=
        List.mem_filter.mpr ⟨List.mem_map_of_mem here, by
          rw [Record.stays, Bool.not_eq_true']
          exact free⟩
      rw [← standing] at kept
      cases kept

/-! ### An empty register -/

/-- The register is empty, and the line is this one. -/
structure EmptyOn (l : LineControl) (c : Controller) : Prop where
  records : c.records = []
  line : c.line = l

theorem OnlyPlaces.emptyOn {l : LineControl} (only : OnlyPlaces c d) (h : EmptyOn l c) : EmptyOn l d :=
  ⟨only.records.trans h.records, only.line.trans h.line⟩

theorem offerOwedCommand_emptyOn {l : LineControl} (vent : Bool) (n : JacketNo) (h : EmptyOn l c) :
    EmptyOn l (c.offerOwedCommand vent n) := by
  rcases offerOwedCommand_cases c vent n with ⟨same, -⟩ | ⟨k, -, -, made⟩
  · rw [same]
    exact h
  · obtain ⟨line, records, -⟩ := offerCommand_same c n k
    rw [made]
    exact ⟨records.trans h.records, line.trans h.line⟩

/-- With an empty register the arbitration makes no step of a record and drains no line (R8). -/
theorem arbitrateDepth_emptyOn {l : LineControl} (depth : Nat) (c : Controller) (h : EmptyOn l c) :
    EmptyOn l (Controller.arbitrateDepth depth c) := by
  cases depth with
  | zero => exact h
  | succ depth =>
    have vents := foldl_keep (p := EmptyOn l) (fun _ n => offerOwedCommand_emptyOn true n) jacketNumbers c h
    unfold Controller.arbitrateDepth Controller.arbitrateWith
    dsimp only
    generalize jacketNumbers.foldl (Controller.offerOwedCommand true) c = x at vents
    have hold := (offerOwedInfeed_onlyPlaces x .hold).emptyOn vents
    generalize x.offerOwedInfeed .hold = y at hold
    rw [hold.records, List.map_nil, List.foldl_nil]
    have commands := foldl_keep (p := EmptyOn l) (fun _ n => offerOwedCommand_emptyOn false n) jacketNumbers y hold
    generalize jacketNumbers.foldl (Controller.offerOwedCommand false) y = z at commands
    exact ((offerOwedInfeed_onlyPlaces z .release).trans ((offerReply_onlyPlaces _).trans (offerNotices_onlyPlaces _))).emptyOn commands

theorem raise_judge_reported (c : Controller) {cls : NoticeClass} (other : cls ≠ .infeedHeld) (subject cause : Nat) :
    ((c.raise cls subject cause).judge false).Reported cls subject cause :=
  (judge_heldAlone false _).reported (judge_onlyPlaces false _) other (raise_reported c cls subject cause)

/-- The removal of the last record of a STOPPING line makes it STOPPED and reports it (R58, R171). -/
theorem removal_drains {arb : Controller → Controller} (empties : ∀ l c, EmptyOn l c → EmptyOn l (arb c)) {slot : Nat}
    (stopping : c.line.state = .stopping) (last : ∀ x ∈ c.records, x.slot = slot) :
    (Controller.removeWith arb slot c).records = [] ∧ (Controller.removeWith arb slot c).line = { c.line with state := .stopped } ∧
      (Controller.removeWith arb slot c).Reported .lineStopped 0 0 := by
  have dropped : EmptyOn c.line (c.dropRecord slot) := ⟨List.filter_eq_nil_iff.mpr fun x member => by simp [last x member], rfl⟩
  have left : EmptyOn c.line (c.removed arb slot) :=
    (judge_onlyPlaces false _).emptyOn (withdrawLoop_keep (p := EmptyOn c.line) (fun _ _ h => ⟨h.records, h.line⟩)
      (fun _ => (judge_onlyPlaces true _).emptyOn) (empties c.line) _ _ _ dropped)
  rw [removeWith_eq]
  generalize c.removed arb slot = x at left
  have drained : x.finishDrain = ((x.setLineState .stopped).raise .lineStopped 0 0).judge false :=
    if_pos ⟨by rw [left.line]; exact stopping, left.records⟩
  have only := (raise_onlyPlaces (x.setLineState .stopped) .lineStopped 0 0).trans (judge_onlyPlaces false _)
  rw [drained]
  refine ⟨only.records.trans left.records, only.line.trans ?_, raise_judge_reported _ (by decide) _ _⟩
  show { x.line with state := LineState.stopped } = _
  rw [left.line]

end Sys2Proof.Machine
end

section
/-! SUPPORT. RELEASE of a held record (O34, R58 to R60, R171). -/
namespace Sys2Proof.Machine

variable {c d : Controller}

/-! ### Reports that stand -/

theorem HeldAlone.reportStands (h : HeldAlone c d) (queue : c.ring.queue <+: d.ring.queue) {cls : NoticeClass} (other : cls ≠ .infeedHeld)
    {subject cause : Nat} (made : c.Reported cls subject cause) : d.Reported cls subject cause := by
  rcases made with pending | ⟨e, member, body⟩
  · exact .inl (by rw [h.1 cls other]; exact pending)
  · exact .inr ⟨e, queue.subset member, body⟩

theorem Answered.reported {h : Header} {code : Nat} {t : Controller} (answered : Answered h code d t) {cls : NoticeClass}
    (other : cls ≠ .infeedHeld) {subject cause : Nat} (made : d.Reported cls subject cause) : t.Reported cls subject cause :=
  answered.notices.reportStands answered.queue other made

theorem offerOwedCommand_heldAlone (vent : Bool) (c : Controller) (n : JacketNo) : HeldAlone c (c.offerOwedCommand vent n) := by
  rcases offerOwedCommand_cases c vent n with ⟨same, -⟩ | ⟨k, -, -, made⟩
  · rw [same]
    exact heldAlone_of_notices rfl
  · rw [made]
    unfold Controller.offerCommand
    split
    · exact (heldAlone_of_notices rfl).trans (judge_heldAlone false _)
    · exact heldAlone_of_notices rfl

theorem offerOwedInfeed_heldAlone (c : Controller) (o : InfeedOrder) : HeldAlone c (c.offerOwedInfeed o) := by
  rcases offerOwedInfeed_cases c o with ⟨-, same | ⟨-, cleared⟩⟩ | ⟨-, -, made⟩
  · rw [same]
    exact heldAlone_of_notices rfl
  · rw [cleared]
    exact heldAlone_of_notices rfl
  · rw [made]
    split
    · exact (heldAlone_of_notices rfl).trans (judge_heldAlone false _)
    · exact heldAlone_of_notices rfl

/-- A class that is offered is reported still: it stays pending, or its NOTICE is placed (R179). -/
theorem offerNotice_reported (k : NoticeClass) {cls : NoticeClass} (other : cls ≠ .infeedHeld) {subject cause : Nat}
    (made : c.Reported cls subject cause) : (c.offerNotice k).Reported cls subject cause := by
  have only := offerNotice_onlyPlaces c k
  rcases made with ⟨pending, subjectSame, causeSame⟩ | ⟨e, member, body⟩
  · unfold Controller.offerNotice
    split
    · by_cases same : cls = k
      · subst same
        refine .inr ⟨_, (judge_onlyPlaces false _).stays (List.mem_append_right _ (List.mem_singleton_self _)), (c.notice cls).count, ?_⟩
        rw [Controller.noticeBody, subjectSame, causeSame]
      · refine (judge_heldAlone false _).reported (judge_onlyPlaces false _) other (.inl ?_)
        rw [notice_putNotice, if_neg same]
        exact ⟨pending, subjectSame, causeSame⟩
    · exact .inl ⟨pending, subjectSame, causeSame⟩
  · exact .inr ⟨e, only.stays member, body⟩

/-- Behind the records the arbitration only offers (R8). -/
def Controller.arbitrateTail (c : Controller) : Controller :=
  ((jacketNumbers.foldl (Controller.offerOwedCommand false) c).offerOwedInfeed .release).offerReply.offerNotices

theorem arbitrateTail_reported {cls : NoticeClass} (other : cls ≠ .infeedHeld) {subject cause : Nat} (free : c.NoPending)
    (made : c.Reported cls subject cause) : c.arbitrateTail.Reported cls subject cause := by
  have commands := foldl_keep (p := fun x => x.NoPending ∧ x.Reported cls subject cause) (fun x n h =>
    have grows := offerOwedCommand_grows false x n h.1
    ⟨grows.pending, (offerOwedCommand_heldAlone false x n).reportStands grows.queue other h.2⟩) jacketNumbers c ⟨free, made⟩
  unfold Controller.arbitrateTail
  generalize jacketNumbers.foldl (Controller.offerOwedCommand false) c = x at commands
  have release := (offerOwedInfeed_heldAlone x .release).reported (offerOwedInfeed_onlyPlaces x .release) other commands.2
  have reply := (offerReply_heldAlone _).reported (offerReply_onlyPlaces _) other release
  exact foldl_keep (p := fun x => x.Reported cls subject cause) (fun _ k h => offerNotice_reported k other h) noticeClasses _ reply

theorem arbitrateTail_emptyOn {l : LineControl} (h : EmptyOn l c) : EmptyOn l c.arbitrateTail := by
  have commands := foldl_keep (p := EmptyOn l) (fun _ n => offerOwedCommand_emptyOn false n) jacketNumbers c h
  unfold Controller.arbitrateTail
  generalize jacketNumbers.foldl (Controller.offerOwedCommand false) c = x at commands
  exact ((offerOwedInfeed_onlyPlaces x .release).trans ((offerReply_onlyPlaces _).trans (offerNotices_onlyPlaces _))).emptyOn commands

theorem arbitrateTail_runs (c : Controller) : Runs c c.arbitrateTail := by
  have commands := foldl_runs (offerOwedCommand_runs false) jacketNumbers c
  unfold Controller.arbitrateTail
  generalize jacketNumbers.foldl (Controller.offerOwedCommand false) c = x at commands
  exact ((commands.trans (offerOwedInfeed_places x .release).runs).trans (offerReply_places _).runs).trans (offerNotices_places _).runs

/-! ### A frame without an owner stays -/

/-- A frame of this body stands in the queue without an owner (R58, step 3). -/
def Controller.Disowned (c : Controller) (b : Body) : Prop := ∃ e ∈ c.ring.queue, e.owner = .lost ∧ e.body = b

theorem Micro.disowned {b : Body} (step : Micro c d) (h : c.Disowned b) : d.Disowned b := by
  obtain ⟨e, member, owner, body⟩ := h
  cases step with
  | places places => exact ⟨e, places.only.stays member, owner, body⟩
  | command n k owed room => exact ⟨e, List.mem_append_left _ member, owner, body⟩
  | order s r o rest here owed room => exact ⟨e, List.mem_append_left _ member, owner, body⟩
  | result s r l here => exact ⟨e, List.mem_append_left _ member, owner, body⟩
  | drop s r here pending =>
    refine ⟨e, List.mem_map.mpr ⟨e, member, if_neg ?_⟩, owner, body⟩
    rw [owner]
    exact fun h => nomatch h.1
  | withdraw s gone =>
    refine ⟨e, (List.mem_eraseP_of_neg ?_).mpr member, owner, body⟩
    rw [QueueEntry.isOrderOf, owner]
    exact Bool.false_ne_true
  | drained stopping empty => exact ⟨e, member, owner, body⟩

theorem Runs.disowned {b : Body} (run : Runs c d) (h : c.Disowned b) : d.Disowned b := run.keep (fun _ _ => Micro.disowned) h

theorem dropRecord_disowned {slot : Nat} {e : QueueEntry} (member : e ∈ c.ring.queue) (owner : e.owner = .record slot)
    (order : e.body.isOrder = false) : (c.dropRecord slot).Disowned e.body :=
  ⟨{ e with owner := .lost }, List.mem_map.mpr ⟨e, member, if_pos ⟨owner, order⟩⟩, rfl, rfl⟩

/-! ### A pending release that the arbitration completes (R59, R140) -/

theorem arbitrateTail_completed {l : LineControl} {subject cause : Nat} {b : Body} (empty : EmptyOn l c)
    (reported : c.Reported .lineStopped subject cause) (disowned : c.Disowned b) :
    c.arbitrateTail.records = [] ∧ c.arbitrateTail.line = l ∧ c.arbitrateTail.Reported .lineStopped subject cause ∧
      c.arbitrateTail.Disowned b := by
  have left := arbitrateTail_emptyOn empty
  have free : c.NoPending := fun r member => by
    rw [empty.records] at member
    cases member
  exact ⟨left.records, left.line, arbitrateTail_reported (by decide) free reported, Runs.disowned (arbitrateTail_runs c) disowned⟩

theorem putResult_last {r : Record} {l : LastResult} (only : c.records = [r]) : (∀ x ∈ (c.putResult r.slot r.serial l).records, x.slot = r.slot) ∧
    (c.putResult r.slot r.serial l).line = c.line ∧
    ∃ e ∈ (c.putResult r.slot r.serial l).ring.queue, e.owner = .record r.slot ∧ e.body = .testResult r.serial l := by
  have judged := judge_onlyPlaces false ((c.enqueue (.testResult r.serial l) (.record r.slot)).updRecord r.slot fun r => { r with resultOwed := false })
  refine ⟨fun x member => ?_, judged.line, _, judged.stays (List.mem_append_right _ (List.mem_singleton_self _)), rfl, rfl⟩
  have same : (c.putResult r.slot r.serial l).records = c.records.map fun x => if x.slot = r.slot then { x with resultOwed := false } else x :=
    judged.records
  rw [same, only, List.map_cons, if_pos rfl, List.map_nil, List.mem_singleton] at member
  rw [member]

section Pending
variable {r : Record} {l : LastResult} (stopping : c.line.state = .stopping) (only : c.records = [r]) (pending : r.releasePending = true)
  (owed : r.resultOwed = true) (last : r.lastResult = some l) (quiet : ∀ n, (c.jacket n).owedCommand = none) (infeed : c.mark.owed = none)
  (short : c.ring.queue.length < 16) (few : normalCount c.ring.queue < 12)
include stopping only pending owed last quiet infeed short few

/-- The only record's TEST RESULT is placed, and the record removed. -/
theorem arbitrate_completes :
    c.arbitrate = (Controller.removeWith (Controller.arbitrateDepth 1) r.slot (c.putResult r.slot r.serial l)).arbitrateTail := by
  have here : c.recordAt r.slot = some r := by
    rw [Controller.recordAt, only]
    exact List.find?_cons_of_pos (beq_self_eq_true r.slot)
  have vents : jacketNumbers.foldl (Controller.offerOwedCommand true) c = c :=
    foldl_keep (p := fun x => x = c) (fun x n same => by
      rw [same, Controller.offerOwedCommand, quiet n]) jacketNumbers c rfl
  have hold : c.offerOwedInfeed .hold = c := by rw [Controller.offerOwedInfeed, infeed]
  have room : c.hasRoom (.testResult r.serial l) = true := (hasRoom_normal (by rw [stopping]; decide) rfl).mpr ⟨short, few⟩
  have served : Controller.offerRecordWith (Controller.arbitrateDepth 1) c r.slot =
      Controller.removeWith (Controller.arbitrateDepth 1) r.slot (c.putResult r.slot r.serial l) := by
    rw [Controller.offerRecordWith, here]
    simp only [owed, last, room, pending, if_true]
  have depth : c.arbitrate = Controller.arbitrateWith (Controller.arbitrateDepth 1) c := by
    rw [Controller.arbitrate, only]
    rfl
  rw [depth, Controller.arbitrateWith, vents]
  simp only [hold, only, List.map_cons, List.map_nil, List.foldl_cons, List.foldl_nil, served]
  rfl

theorem arbitrate_completed : c.arbitrate.records = [] ∧ c.arbitrate.line = { c.line with state := .stopped } ∧
    c.arbitrate.Reported .lineStopped 0 0 ∧ c.arbitrate.Disowned (.testResult r.serial l) := by
  rw [arbitrate_completes stopping only pending owed last quiet infeed short few]
  obtain ⟨slots, line, e, placed, owner, body⟩ := putResult_last (l := l) only
  generalize c.putResult r.slot r.serial l = x at slots line placed
  obtain ⟨empty, stopped, reported⟩ := removal_drains (arb := Controller.arbitrateDepth 1) (fun _ => arbitrateDepth_emptyOn 1)
    (by rw [line]; exact stopping) slots
  have disowned := Runs.disowned (removeWith_runs (arbitrateDepth_runs 1) r.slot x) (dropRecord_disowned placed owner (by rw [body]; rfl))
  rw [body] at disowned
  rw [line] at stopped
  exact arbitrateTail_completed ⟨empty, stopped⟩ reported disowned

end Pending

/-! ### RELEASE (R60) -/

section Release
variable {serial : Serial} {r : Record}

theorem releaseSerial_none (absent : c.recordOf serial = none) : c.releaseSerial serial = .error .notFound := by
  rw [Controller.releaseSerial, absent]

variable (found : c.recordOf serial = some r)
include found

theorem releaseSerial_busy (other : r.state ≠ .manualHeld) : c.releaseSerial serial = .error .busy := by
  rw [Controller.releaseSerial, found]
  exact if_pos other

theorem releaseSerial_pending (held : r.state = .manualHeld) (pending : r.releasePending = true) : c.releaseSerial serial = .ok c := by
  rw [Controller.releaseSerial, found]
  exact (if_neg (not_not.mpr held)).trans (if_pos pending)

theorem releaseSerial_asks (held : r.state = .manualHeld) (free : r.releasePending = false) :
    c.releaseSerial serial = .ok (c.askRelease r.slot) := by
  rw [Controller.releaseSerial, found]
  exact (if_neg (not_not.mpr held)).trans (if_neg (ne_true_of_eq_false free))

end Release

theorem askRelease_removes {r : Record} (here : c.recordAt r.slot = some r) (none : r.resultOwed = false) :
    c.askRelease r.slot = c.remove r.slot := by
  rw [Controller.askRelease, here]
  exact if_neg (ne_true_of_eq_false none)

theorem askRelease_waits {r : Record} (here : c.recordAt r.slot = some r) (owed : r.resultOwed = true) :
    c.askRelease r.slot = c.updRecord r.slot fun r => { r with releasePending := true } := by
  rw [Controller.askRelease, here]
  exact if_pos owed

/-- Settles O34: the record is removed at once, when its TEST RESULT is placed, or not at all. -/
theorem releaseOfHeldRecord : Obligations.ReleaseOfHeldRecord := by
  intro s h a b c d takes sound serial
  let taken := s.part.taken (manageFrame h [3, 10, a, b, c, d]).markTaken.wire
  have asked : taken.judgeRequest [3, 10, a, b, c, d] = taken.commandAnswer 10 (taken.releaseSerial serial) := rfl
  have taken_sound : taken.RegisterSound := sound
  have accepted {x : Controller} (ok : taken.releaseSerial serial = .ok x) :
      ∃ t, exec (.release h [a, b, c, d]) s = .next (s.withPart t) ∧ Answered h 10 x t :=
    exec_accepted (i := .release h [a, b, c, d]) rfl takes asked ok (show ([3, 10] : List Byte) ≠ [3, 11] by decide)
  refine ⟨fun r found held free none => ?_,
    fun c r l stopping only pending owed last _ quiet infeed _ short few => arbitrate_completed stopping only pending owed last quiet infeed short few,
    fun r found held free owed => ?_, fun r found held pending => ?_, fun absent => ?_, fun r found other => ?_⟩
  · have here := recordAt_of_recordOf taken_sound found
    have ok := releaseSerial_asks (c := taken) found held free
    rw [askRelease_removes here none] at ok
    obtain ⟨t, run, answered⟩ := accepted ok
    refine ⟨t, run, ?_, answered.replied, fun stopping only => ?_, fun stays => ?_⟩
    · exact (recordOf_congr answered.records serial).trans (removal_gone arbitrate_serves taken_sound found)
    · obtain ⟨-, line, reported⟩ := removal_drains (c := taken) (arb := Controller.arbitrate) (slot := r.slot)
        (fun _ x => arbitrateDepth_emptyOn (x.records.length + 1) x) stopping fun x member => by
          rw [show taken.records = [r] from only, List.mem_singleton] at member
          rw [member]
      exact ⟨answered.line.trans line, answered.reported (by decide) reported⟩
    · exact answered.line.trans (removal_line (c := taken) arbitrate_serves taken_sound.2.2.1 stays)
  · have here := recordAt_of_recordOf taken_sound found
    have ok := releaseSerial_asks (c := taken) found held free
    rw [askRelease_waits here owed] at ok
    obtain ⟨t, run, answered⟩ := accepted ok
    exact ⟨t, run, (recordOf_congr answered.records serial).trans
      (recordOf_updRecord taken_sound found (f := fun r => { r with releasePending := true }) fun _ => ⟨rfl, rfl⟩), answered.replied⟩
  · have ok := releaseSerial_pending (c := taken) found held pending
    have answer := asked.trans (commandAnswer_ok 10 ok)
    have run : exec (.release h [a, b, c, d]) s = _ := congrArg (fun c => Host.Outcome.next (s.withPart c)) (receiveFrame_request takes)
    exact ⟨_, run, answered_onlyAnswers answer (f := Option.none) (.inl rfl) _, (answered_onlyPlaces answer _).replied _ (.inl rfl)⟩
  · obtain ⟨t, run, answers, replied⟩ := exec_refused (i := .release h [a, b, c, d]) rfl takes asked (releaseSerial_none absent)
    exact ⟨t, run, answers.2.2.2.2.2.2.1, replied⟩
  · obtain ⟨t, run, answers, replied⟩ := exec_refused (i := .release h [a, b, c, d]) rfl takes asked (releaseSerial_busy found other)
    exact ⟨t, run, answers.2.2.2.2.2.2.1, replied⟩

end Sys2Proof.Machine
end

section
/-! SUPPORT. The outcomes of the part's own frames at their owners (O10, R15, R96). -/
namespace Sys2Proof.Machine

variable {c d : Controller}

/-! ### Undelivered INFEED frames (R15) -/

/-- A mark that is HELD for a reason stays HELD when a NOTICE takes a place of the queue (R52). -/
theorem raise_held (judged : c.Judged) (held : c.mark.value = .held) (cls : NoticeClass) (subject cause : Nat) :
    (c.raise cls subject cause).mark.value = .held := by
  unfold Controller.raise Controller.offerNotice
  split
  · have still : ((c.markRaise cls subject cause false).putNotice cls).infeedReasons.wanted = .held := by
      refine wanted_of_held (r := c.infeedReasons) (judged.2.symm.trans held) rfl rfl fun full => ?_
      simp only [Controller.infeedReasons, Bool.not_eq_true'] at full ⊢
      simp only [Controller.putNotice, Controller.updNotice, Controller.enqueue, Controller.setQueue, Controller.markRaise,
        List.filter_append]
      exact normalRoom_append _ _ full
    generalize made : (c.markRaise cls subject cause false).putNotice cls = x at still
    have value : x.mark.value = .held := by rw [← made]; exact held
    rw [judge_calm (show x.Calm from value.trans still.symm)]
    exact value
  · exact held

theorem infeedLost_holds {o : InfeedOrder} (same : (c.raise .undelivered 0 16).mark.value.order = o) :
    c.infeedLost o = (c.raise .undelivered 0 16).offerInfeed o .repeated := if_pos same

theorem infeedLost_stale {o : InfeedOrder} (other : (c.raise .undelivered 0 16).mark.value.order ≠ o) :
    c.infeedLost o = c.raise .undelivered 0 16 := if_neg other

theorem order_eq_iff (v : MarkValue) (o : InfeedOrder) :
    v.order = o ↔ (o = .hold ∧ v = .held) ∨ (o = .release ∧ v = .released) := by
  cases v <;> cases o <;> simp [MarkValue.order]

theorem offerInfeed_heldAlone (c : Controller) (o : InfeedOrder) (origin : Origin) : HeldAlone c (c.offerInfeed o origin) := by
  unfold Controller.offerInfeed
  split
  · exact heldAlone_of_notices rfl
  · exact heldAlone_of_notices rfl

/-- An INFEED frame offered afresh is placed, or owed (R54). -/
theorem offerInfeed_made (c : Controller) (o : InfeedOrder) :
    (∃ q ∈ (c.offerInfeed o .repeated).ring.queue, q.owner = .infeed ∧ q.body = .infeed o) ∨
      (c.offerInfeed o .repeated).mark.owed = some { order := o, origin := .repeated } := by
  unfold Controller.offerInfeed
  split
  · exact .inl ⟨_, List.mem_append_right _ (List.mem_singleton_self _), rfl, rfl⟩
  · exact .inr rfl

/-! ### Undelivered commands (R95, R96) -/

theorem dropStale_serves (c : Controller) (n : JacketNo) : Serves c (c.dropStale n) := dropCommands_serves c n _

/-- A jacket that faults keeps its context but for its state, the record it serves and the command it owes (R95). -/
theorem faultJacket_jacket {n : JacketNo} (works : (c.jacket n).state.isFault = false) (cause : FaultCause) :
    ∃ owed, (c.faultJacket n cause).jacket n = { c.jacket n with state := .fault cause, slot := none, owedCommand := owed } := by
  obtain ⟨owed, held⟩ := holdServed_jacket (c.updJacket n fun j => { j with state := .fault cause }) n n
  rw [jacket_updJacket, if_pos rfl] at held
  unfold Controller.faultJacket
  rw [if_neg (ne_true_of_eq_false works), (raise_onlyPlaces _ _ _ _).jacket]
  generalize (c.updJacket n fun j => { j with state := .fault cause }).holdServed n = x at held
  have cleared : (x.updJacket n fun j => { j with slot := none }).jacket n =
      { c.jacket n with state := .fault cause, slot := none, owedCommand := owed } := by
    rw [jacket_updJacket, if_pos rfl, held]
  generalize (x.updJacket n fun j => { j with slot := none }) = y at cleared
  have vented : Serves y (if (c.jacket n).state.pressing then y.makeVent n else y) := by
    split
    · exact makeVent_serves y n
    · exact .refl
  have served := (vented.trans (dropStale_serves _ n)).jackets n
  exact ⟨_, served.trans (by rw [cleared])⟩

theorem faultJacket_reported {n : JacketNo} (works : (c.jacket n).state.isFault = false) (cause : FaultCause) :
    (c.faultJacket n cause).Reported .jacketFault n.val cause.code := by
  unfold Controller.faultJacket
  rw [if_neg (ne_true_of_eq_false works)]
  exact raise_reported _ _ _ _

theorem commandLost_faults {n : JacketNo} (busy : (c.jacket n).state.pressing = true ∨ (c.jacket n).state = .heldVented ∨
    (c.jacket n).state = .unloading) : c.commandLost n = c.faultJacket n .station ∧ (c.jacket n).state.isFault = false := by
  unfold Controller.commandLost
  generalize (c.jacket n).state = state at busy
  rcases busy with pressing | rfl | rfl
  · cases state with
    | running k => exact ⟨rfl, rfl⟩
    | recovering reason => exact ⟨rfl, rfl⟩
    | _ => cases pressing
  · exact ⟨rfl, rfl⟩
  · exact ⟨rfl, rfl⟩

theorem commandLost_rests {n : JacketNo} (idle : (c.jacket n).state = .disabled ∨ (c.jacket n).state = .idle ∨
    (c.jacket n).state = .awaiting ∨ (c.jacket n).state.isFault = true) : c.commandLost n = c := by
  unfold Controller.commandLost
  generalize (c.jacket n).state = state at idle
  rcases idle with rfl | rfl | rfl | fault
  · rfl
  · rfl
  · rfl
  · cases state with
    | fault cause => rfl
    | _ => cases fault

/-! ### The oldest entry's outcome (R11, R15) -/

section Oldest
variable {destination kind sequence trailer : Byte} {payload : List Byte} {s : State} {e : OutEntry} {rest : List OutEntry}
  (inService : s.part.bypass = false) (short : payload.length ≤ 200) (oldest : s.part.ring.outstanding = e :: rest)
  (number : e.sequence = sequence.toNat)
include inService short oldest number

/-- The frame of the oldest entry hands its outcome to that entry's owner. -/
theorem exec_oldestReturns : exec (.returnMatching destination kind sequence payload trailer) s =
    .next (s.withPart ((s.part.setOutstanding rest).outcome e (trailer.getLsbD 0 || destination == 63))) := by
  have first : (s.part.ring.outstanding.map OutEntry.sequence).findIdx? (· == sequence.toNat) = some 0 := by
    rw [oldest, List.map_cons, List.findIdx?_cons, number, if_pos (beq_self_eq_true _)]
  rw [exec_returnMatching inService short, matchReturn_found _ first]
  show Host.Outcome.next (s.withPart (s.part.popOldest _)) = _
  rw [popOldest_cons oldest]

theorem exec_oldestDelivered (taken : trailer.getLsbD 0 = true ∨ destination.toNat = 63) :
    exec (.returnMatching destination kind sequence payload trailer) s =
      .next (s.withPart ((s.part.setOutstanding rest).outcome e true)) := by
  rw [exec_oldestReturns inService short oldest number]
  have mark : (trailer.getLsbD 0 || destination == 63) = true := by
    rcases taken with bit | all
    · rw [bit]
      rfl
    · rw [BitVec.eq_of_toNat_eq (show destination.toNat = (63 : Byte).toNat from all), beq_self_eq_true, Bool.or_true]
  rw [mark]

theorem exec_oldestLost (lost : ¬(trailer.getLsbD 0 = true ∨ destination.toNat = 63)) :
    exec (.returnMatching destination kind sequence payload trailer) s =
      .next (s.withPart ((s.part.setOutstanding rest).outcome e false)) := by
  rw [exec_oldestReturns inService short oldest number]
  obtain ⟨bit, one⟩ := not_or.mp lost
  have mark : (trailer.getLsbD 0 || destination == 63) = false := by
    rw [Bool.or_eq_false_iff, beq_eq_false_iff_ne]
    exact ⟨Bool.eq_false_iff.mpr bit, fun all => one (by rw [all]; rfl)⟩
  rw [mark]

end Oldest

theorem outcome_unheeded {e : OutEntry} (owner : (∃ k, e.owner = .notice k) ∨ e.owner = .reply ∨ e.owner = .lost) (taken : Bool) :
    c.outcome e taken = c := by
  unfold Controller.outcome
  rcases owner with ⟨k, owner⟩ | owner | owner <;> rw [owner]

theorem outcome_delivered {e : OutEntry} (owner : (∃ n, e.owner = .jacket n) ∨ e.owner = .infeed ∨ (∃ k, e.owner = .notice k) ∨
    e.owner = .reply ∨ (∃ x, e.owner = .recordless x) ∨ (∃ slot x r, e.owner = .record slot ∧ e.body = .testResult x r)) :
    c.outcome e true = c := by
  rcases owner with ⟨n, owner⟩ | owner | notice | reply | ⟨x, owner⟩ | ⟨slot, x, r, owner, body⟩
  · rw [Controller.outcome, owner]
    rfl
  · rw [Controller.outcome, owner]
    cases e.body <;> rfl
  · exact outcome_unheeded (.inl notice) true
  · exact outcome_unheeded (.inr (.inl reply)) true
  · rw [Controller.outcome, owner]
    rfl
  · rw [Controller.outcome, owner]
    show c.recordOutcome slot e true = c
    rw [Controller.recordOutcome]
    cases c.recordAt slot with
    | none => rfl
    | some r => simp only [body, if_true]

theorem recordOutcome_resultLost {e : OutEntry} {r : Record} {x : Serial} {l : LastResult} (here : c.recordAt r.slot = some r)
    (body : e.body = .testResult x l) : c.recordOutcome r.slot e false = c.raise .undelivered r.serial 32 := by
  rw [Controller.recordOutcome, here]
  simp only [body]
  rfl

/-- Settles O10: the frame matches the oldest entry, so its outcome goes to that entry's owner. -/
theorem outcomesOfOwnFrames : Obligations.OutcomesOfOwnFrames := by
  intro destination kind sequence payload trailer s e rest inService short oldest number i removed delivered
  have lost (undelivered : ¬delivered) : exec i s = .next (s.withPart (removed.outcome e false)) :=
    exec_oldestLost inService short oldest number undelivered
  refine ⟨fun taken owner => ?_, fun owner => ?_, fun n undelivered owner => ⟨_, lost undelivered, ?_⟩,
    fun x undelivered owner => ⟨_, lost undelivered, ?_⟩, fun r x l undelivered owner here body => ⟨_, lost undelivered, ?_⟩,
    fun undelivered owner body judged held => ⟨_, lost undelivered, ?_⟩, fun o undelivered owner body => ?_⟩
  · rw [exec_oldestDelivered inService short oldest number taken, outcome_delivered owner]
    rfl
  · rw [exec_oldestReturns inService short oldest number, outcome_unheeded owner]
    rfl
  · have handed : removed.outcome e false = removed.commandLost n := by
      rw [Controller.outcome, owner]
      rfl
    rw [handed]
    refine ⟨fun busy => ?_, commandLost_rests (c := removed)⟩
    obtain ⟨faults, works⟩ := commandLost_faults (c := removed) busy
    obtain ⟨owed, jacket⟩ := faultJacket_jacket (c := removed) works .station
    rw [faults, jacket]
    exact ⟨rfl, rfl, faultJacket_reported (c := removed) works .station⟩
  · have handed : removed.outcome e false = removed.raise .undelivered x 17 := by
      rw [Controller.outcome, owner]
      rfl
    have only := raise_onlyPlaces removed .undelivered x 17
    rw [handed]
    exact ⟨raise_reported _ _ _ _, only.records, only.jackets⟩
  · have handed : removed.outcome e false = removed.raise .undelivered r.serial 32 := by
      rw [Controller.outcome, owner]
      exact recordOutcome_resultLost (c := removed) here body
    have only := raise_onlyPlaces removed .undelivered r.serial 32
    rw [handed]
    exact ⟨raise_reported _ _ _ _, only.records, only.jackets⟩
  · have handed : removed.outcome e false = removed.infeedLost .hold := by
      rw [Controller.outcome, owner, body]
      rfl
    have value := raise_held (c := removed) judged held .undelivered 0 16
    rw [handed, infeedLost_holds ((order_eq_iff _ _).mpr (.inl ⟨rfl, value⟩))]
    exact ⟨(offerInfeed_heldAlone _ _ _).reported (offerInfeed_onlyPlaces _ _ _) (by decide) (raise_reported _ _ _ _), offerInfeed_made _ _⟩
  · have handed (undelivered : ¬delivered) : exec i s = .next (s.withPart (removed.infeedLost o)) := by
      rw [lost undelivered, Controller.outcome, owner, body]
      rfl
    refine ⟨raise_reported removed _ _ _, fun stale => ?_, fun holds room => ?_, fun holds full => ?_⟩
    · rw [handed undelivered, infeedLost_stale fun same => stale ((order_eq_iff _ _).mp same)]
    · rw [handed undelivered, infeedLost_holds ((order_eq_iff _ _).mpr holds), Controller.offerInfeed, if_pos room]
      rfl
    · rw [handed undelivered, infeedLost_holds ((order_eq_iff _ _).mpr holds), Controller.offerInfeed,
        if_neg (ne_true_of_eq_false full)]
      rfl

end Sys2Proof.Machine
end

section
/-! SUPPORT. What a withdrawal leaves none of (R84, R94), and JACKET ABORT (O42, R117). -/
namespace Sys2Proof.Machine

variable {c d : Controller} {p : QueueEntry → Bool}

/-! ### Frames that no step adds to -/

/-- The frames of the queue that satisfy a test. -/
def Controller.count (p : QueueEntry → Bool) (c : Controller) : Nat := c.ring.queue.countP p

theorem count_placed {new : List QueueEntry} (queue : d.ring.queue = c.ring.queue ++ new) (none : ∀ x ∈ new, p x = false) :
    d.count p = c.count p := by
  have added : new.countP p = 0 := List.countP_eq_zero.mpr fun x member => ne_true_of_eq_false (none x member)
  rw [Controller.count, queue, List.countP_append, added, Nat.add_zero, Controller.count]

theorem PlacesUnbound.count (h : PlacesUnbound c d) (own : ∀ e : QueueEntry, e.owner.unbound = true → p e = false) : d.count p = c.count p := by
  obtain ⟨new, queue, unbound⟩ := h.placed
  exact count_placed queue fun x member => own x (unbound x member)

/-- A step of the arbitration places none of these frames when nothing owes one. -/
theorem Micro.count_le (step : Micro c d) (own : ∀ e : QueueEntry, e.owner.unbound = true → p e = false)
    (lost : ∀ s e, p (QueueEntry.disownResult s e) = true → p e = true)
    (command : ∀ n k, ∀ e : QueueEntry, (c.jacket n).owedCommand = some k → e.owner = .jacket n → e.body = .command n k → p e = false)
    (order : ∀ s r o rest, ∀ e : QueueEntry, c.recordAt s = some r → r.owedOrders = o :: rest → e.owner = .record s →
      e.body = o.body r.serial → p e = false)
    (result : ∀ s x l, ∀ e : QueueEntry, e.owner = .record s → e.body = .testResult x l → p e = false) : d.count p ≤ c.count p := by
  have one {d : Controller} {x : QueueEntry} (queue : d.ring.queue = c.ring.queue ++ [x]) (none : p x = false) : d.count p ≤ c.count p :=
    (count_placed queue fun y member => by rw [List.mem_singleton.mp member]; exact none).le
  cases step with
  | places places => exact (places.count own).le
  | command n k owed room => exact one rfl (command n k _ owed rfl rfl)
  | order s r o rest here owed room => exact one rfl (order s r o rest _ here owed rfl rfl)
  | result s r l here => exact one rfl (result s r.serial l _ rfl rfl)
  | drop s r here pending =>
    show (c.ring.queue.map _).countP p ≤ c.ring.queue.countP p
    rw [List.countP_map]
    exact List.countP_mono_left fun e _ => lost s e
  | withdraw s gone => exact List.eraseP_sublist.countP_le
  | drained stopping empty => exact le_rfl

/-- A condition under which no step of the arbitration places a frame of these. -/
structure Shuts (p : QueueEntry → Bool) (I : Controller → Prop) : Prop where
  own : ∀ e : QueueEntry, e.owner.unbound = true → p e = false
  erase : ∀ c q, I c → I (c.setQueue q)
  step : ∀ {c d}, Micro c d → I c → I d ∧ d.count p ≤ c.count p

/-- The condition holds, and the queue holds no such frame. -/
def Rid (p : QueueEntry → Bool) (I : Controller → Prop) (c : Controller) : Prop := I c ∧ c.count p = 0

theorem Rid.runs {I : Controller → Prop} (shuts : Shuts p I) (run : Runs c d) (h : Rid p I c) : Rid p I d :=
  run.keep (p := Rid p I) (fun _ _ step h => by
    obtain ⟨still, fewer⟩ := shuts.step step h.1
    exact ⟨still, Nat.le_zero.mp (by rw [← h.2]; exact fewer)⟩) h

/-- A withdrawal leaves none of the frames it asks for (R84, R94). -/
theorem withdrawLoop_rid {I : Controller → Prop} (shuts : Shuts p I) (fuel : Nat) (c : Controller) (h : I c) (few : c.count p ≤ fuel) :
    Rid p I (Controller.withdrawLoop Controller.arbitrate p fuel c) := by
  induction fuel generalizing c with
  | zero => exact ⟨h, Nat.le_zero.mp few⟩
  | succ fuel ih =>
    unfold Controller.withdrawLoop
    split
    · next found =>
      obtain ⟨x, member, asked⟩ := List.any_eq_true.mp found
      have fewer : (c.setQueue (c.ring.queue.eraseP p)).count p ≤ fuel := by
        obtain ⟨y, before, after, -, asked, queue, erased⟩ := List.exists_of_eraseP member asked
        have count : c.count p = (c.setQueue (c.ring.queue.eraseP p)).count p + 1 := by
          show c.ring.queue.countP p = (c.ring.queue.eraseP p).countP p + 1
          rw [erased, queue, List.countP_append, List.countP_append, List.countP_cons, if_pos asked, Nat.add_assoc]
        omega
      have run : Runs (c.setQueue (c.ring.queue.eraseP p)) ((c.setQueue (c.ring.queue.eraseP p)).judge true).arbitrate :=
        (judge_places true _).runs.trans (arbitrate_runs _)
      obtain ⟨still, left⟩ := run.keep (p := fun x => I x ∧ x.count p ≤ fuel) (fun _ _ step h => by
        obtain ⟨still, fewer⟩ := shuts.step step h.1
        exact ⟨still, fewer.trans h.2⟩) ⟨shuts.erase _ _ h, fewer⟩
      exact ih _ still left
    · next none =>
      refine ⟨h, List.countP_eq_zero.mpr fun x member asked => none (List.any_eq_true.mpr ⟨x, member, asked⟩)⟩

theorem withdraw_rid {I : Controller → Prop} (shuts : Shuts p I) (h : I c) : Rid p I (c.withdraw p) :=
  withdrawLoop_rid shuts _ c h le_rfl

theorem Rid.none {I : Controller → Prop} (h : Rid p I c) {e : QueueEntry} (member : e ∈ c.ring.queue) : p e = false :=
  Bool.eq_false_iff.mpr (List.countP_eq_zero.mp h.2 e member)

/-! ### A jacket without a SET (R94) -/

/-- A jacket that owes none of these commands. -/
def OwesNo (n : JacketNo) (test : Command → Bool) (c : Controller) : Prop := ∀ k, (c.jacket n).owedCommand = some k → test k = false

theorem isCommandOf_iff (n : JacketNo) (test : Command → Bool) (e : QueueEntry) : QueueEntry.isCommandOf n test e = true ↔
    e.owner = .jacket n ∧ ∃ m k, e.body = .command m k ∧ test k = true := by
  rw [QueueEntry.isCommandOf, Bool.and_eq_true, beq_iff_eq]
  cases e.body <;> simp

theorem isCommandOf_false {n : JacketNo} {test : Command → Bool} {e : QueueEntry}
    (other : e.owner = .jacket n → ∀ m k, e.body = .command m k → test k = false) : QueueEntry.isCommandOf n test e = false := by
  refine Bool.eq_false_iff.mpr fun asked => ?_
  obtain ⟨owner, m, k, body, holds⟩ := (isCommandOf_iff n test e).mp asked
  rw [other owner m k body] at holds
  cases holds

theorem owesNo_shuts (n : JacketNo) (test : Command → Bool) : Shuts (QueueEntry.isCommandOf n test) (OwesNo n test) where
  own e unbound := isCommandOf_false fun owner => by rw [owner] at unbound; cases unbound
  erase c q h := h
  step {c d} step h := by
    refine ⟨?_, step.count_le (fun e unbound => isCommandOf_false fun owner => by rw [owner] at unbound; cases unbound) ?_ ?_ ?_ ?_⟩
    · cases step with
      | places places =>
        intro k owed
        rw [places.only.jacket] at owed
        exact h k owed
      | command m k owed room =>
        intro k owed
        rw [jacket_updJacket] at owed
        split at owed
        · cases owed
        · exact h k owed
      | _ => exact h
    · intro s e asked
      unfold QueueEntry.disownResult at asked
      split at asked
      · exact absurd ((isCommandOf_iff _ _ _).mp asked).1 nofun
      · exact asked
    · intro m k e owed owner body
      refine isCommandOf_false fun same m' k' body' => ?_
      rw [owner] at same
      cases same
      rw [body] at body'
      cases body'
      exact h k owed
    · exact fun s r o rest e _ _ owner _ => isCommandOf_false fun same => by rw [owner] at same; cases same
    · exact fun s x l e owner _ => isCommandOf_false fun same => by rw [owner] at same; cases same

/-- A jacket neither owes nor has queued a command that it has dropped (R94). -/
theorem dropCommands_rid (c : Controller) (n : JacketNo) (test : Command → Bool) :
    Rid (QueueEntry.isCommandOf n test) (OwesNo n test) (c.dropCommands n test) := by
  refine withdraw_rid (owesNo_shuts n test) fun k owed => ?_
  rw [jacket_updJacket, if_pos rfl] at owed
  simpa using (Option.filter_eq_some_iff.mp owed).2

/-- A VENT leaves its jacket no SET (R94). -/
theorem makeVent_noSet (c : Controller) (n : JacketNo) (target rate : Nat) :
    ((c.makeVent n).jacket n).owedCommand ≠ some (.set target rate) ∧
      ∀ e ∈ (c.makeVent n).ring.queue, e.owner = .jacket n → e.body ≠ .command n (.set target rate) := by
  have rid := dropCommands_rid (c.offerCommand n .vent) n Command.isSet
  refine ⟨fun owed => Bool.noConfusion (rid.1 _ owed), fun e member owner body => ?_⟩
  have asked := (isCommandOf_iff n Command.isSet e).mpr ⟨owner, n, _, body, rfl⟩
  rw [rid.none member] at asked
  cases asked

/-! ### JACKET ABORT -/

theorem abortJacket_running {n : JacketNo} {k : BlockKind} (running : (c.jacket n).state = .running k) :
    c.abortJacket n = .ok (c.ventInto n .abort) := by rw [Controller.abortJacket, running]

theorem abortJacket_busy {n : JacketNo} (idle : (c.jacket n).state.isRunning = false) : c.abortJacket n = .error .busy := by
  unfold Controller.abortJacket
  generalize (c.jacket n).state = state at idle
  cases state with
  | running k => cases idle
  | _ => rfl

/-- Two records with one bare form differ only in the frames they owe. -/
theorem eq_of_bare {r x : Record} (same : r.bare = x.bare) : x = { r with owedOrders := x.owedOrders, resultOwed := x.resultOwed } := by
  calc x = { x.bare with owedOrders := x.owedOrders, resultOwed := x.resultOwed } := rfl
    _ = _ := by rw [← same]; rfl

theorem sameIdentity_of_bare {r x : Record} (same : r.bare = x.bare) : r.SameIdentity x := by
  rw [eq_of_bare same]
  exact sameIdentity_refl r

theorem makeVent_record {n : JacketNo} {x : Record} (member : x ∈ (c.makeVent n).records) : ∃ r ∈ c.records, r.SameIdentity x ∧
    x.attempts = r.attempts ∧ x.countedInvalids = r.countedInvalids ∧ x.state = r.state := by
  obtain ⟨r, here, same⟩ := (makeVent_serves c n).from_record member
  refine ⟨r, here, sameIdentity_of_bare same, ?_⟩
  rw [eq_of_bare same]
  exact ⟨rfl, rfl, rfl⟩

/-- Settles O42: a RUNNING jacket vents, which withdraws its SETs and touches no record but in the frames it owes. -/
theorem jacketAbortVents : Obligations.JacketAbortVents := by
  intro s h n takes number
  let taken := s.part.taken (manageFrame h [3, 9, number]).markTaken.wire
  have asked : taken.judgeRequest [3, 9, number] = taken.commandAnswer 9 (taken.abortJacket n) := by
    rw [← onJacket_number taken.abortJacket n]
    rfl
  refine ⟨fun k running => ?_, fun idle => ?_⟩
  · obtain ⟨t, run, answered⟩ := exec_accepted (i := .jacketAbort h [number]) rfl takes asked (abortJacket_running (c := taken) running) (by simp)
    have jacket : t.jacket n = _ := (answered.jacket n).trans (ventInto_jacket taken n .abort)
    refine ⟨t, run, ?_, ?_, ?_, ?_, fun target rate => ?_, fun x member => ?_,
      answered.verification.trans (makeVent_serves taken n).verification, answered.replied⟩
    · rw [jacket]
    · rw [jacket]
    · rw [jacket]
    · exact (ventInto_commanded taken n .abort).imp (fun owed => (congrArg Jacket.owedCommand (answered.jacket n)).trans owed)
        fun ⟨e, member, made⟩ => ⟨e, answered.queue.subset member, made⟩
    · obtain ⟨noneOwed, noneQueued⟩ := makeVent_noSet taken n target rate
      refine ⟨by rw [jacket]; exact noneOwed, fun e member owner => ?_⟩
      obtain ⟨new, queue, unbound⟩ := answered.places.placed
      rw [queue] at member
      rcases List.mem_append.mp member with old | placed
      · exact noneQueued e old owner
      · have := unbound e placed
        rw [owner] at this
        cases this
    · rw [answered.records] at member
      exact makeVent_record (c := taken) member
  · exact exec_refused (i := .jacketAbort h [number]) rfl takes asked (abortJacket_busy (c := taken) idle)

end Sys2Proof.Machine
end

section
/-! SUPPORT. The orders of a record that are made, and the routes of the Order Unit (O32, R84, R155 to R160). -/
namespace Sys2Proof.Machine

variable {c d : Controller} {slot : Nat} {r : Record}

/-! ### Orders made (R84, R157) -/

/-- The bodies of the queued frames of the record in a slot, oldest first. -/
def Controller.framesOf (c : Controller) (slot : Nat) : List Body :=
  (c.ring.queue.filter fun e => e.owner == .record slot).map QueueEntry.body

theorem framesOf_append {q : List QueueEntry} (queue : d.ring.queue = c.ring.queue ++ q) :
    d.framesOf slot = c.framesOf slot ++ (q.filter fun e => e.owner == .record slot).map QueueEntry.body := by
  rw [Controller.framesOf, queue, List.filter_append, List.map_append, Controller.framesOf]

theorem PlacesUnbound.framesOf (h : PlacesUnbound c d) : d.framesOf slot = c.framesOf slot := by
  obtain ⟨new, queue, unbound⟩ := h.placed
  have none : (new.filter fun e => e.owner == .record slot) = [] := by
    refine List.filter_eq_nil_iff.mpr fun e member owner => ?_
    have := unbound e member
    rw [beq_iff_eq.mp owner] at this
    cases this
  rw [framesOf_append queue, none, List.map_nil, List.append_nil]

theorem enqueue_framesOf (c : Controller) (b : Body) : (c.enqueue b (.record slot)).framesOf slot = c.framesOf slot ++ [b] := by
  refine (framesOf_append (q := [_]) (enqueue_ring_queue c b _ _ _)).trans ?_
  rw [List.filter_cons, if_pos (beq_self_eq_true (Owner.record slot))]
  rfl

/-- Owed orders offered are placed behind the frames of their record, or stay owed (R157). -/
theorem offerOrders_makes (l : List Order) (c : Controller) (r : Record) (here : c.recordAt slot = some r) (owed : r.owedOrders = l) :
    ∃ left, (c.offerOrders slot r.serial l).recordAt slot = some { r with owedOrders := left } ∧
      (c.offerOrders slot r.serial l).framesOf slot ++ left.map (Order.body r.serial) = c.framesOf slot ++ l.map (Order.body r.serial) := by
  induction l generalizing c r with
  | nil => exact ⟨[], here.trans (congrArg some (by rw [← owed])), rfl⟩
  | cons o rest ih =>
    unfold Controller.offerOrders
    split
    · have judged := judge_places false ((c.updRecord slot fun r => { r with owedOrders := rest }).enqueue (o.body r.serial) (.record slot))
      have there : (((c.updRecord slot fun r => { r with owedOrders := rest }).enqueue (o.body r.serial) (.record slot)).judge false).recordAt
          slot = some { r with owedOrders := rest } := by
        rw [judged.only.recordAt]
        exact (recordAt_updOrders c slot rest).trans (by rw [here]; rfl)
      obtain ⟨left, kept, frames⟩ := ih _ { r with owedOrders := rest } there rfl
      refine ⟨left, kept, frames.trans ?_⟩
      rw [judged.framesOf, enqueue_framesOf, List.append_assoc]
      rfl
    · exact ⟨o :: rest, here.trans (congrArg some (by rw [← owed])), rfl⟩

/-- A record whose release is not pending, after an offer of the frames it owes: these stand behind its frames, or are owed still. -/
structure Makes (slot : Nat) (r : Record) (l : List Order) (c d : Controller) : Prop where
  record : ∃ r', d.recordAt slot = some r' ∧ r'.bare = r.bare ∧
    (c.framesOf slot ++ l.map (Order.body r.serial)).Sublist (d.framesOf slot ++ r'.owedOrders.map (Order.body r.serial))

theorem putResult_recordAt {l : LastResult} (here : c.recordAt slot = some r) (serial : Serial) :
    (c.putResult slot serial l).recordAt slot = some { r with resultOwed := false } := by
  unfold Controller.putResult
  rw [(judge_onlyPlaces false _).recordAt]
  refine (recordAt_updRecord (c.enqueue (.testResult serial l) (.record slot)) slot (fun r => { r with resultOwed := false }) fun _ => rfl).trans ?_
  show (c.recordAt slot).map _ = _
  rw [here]
  rfl

theorem putResult_framesOf (c : Controller) (slot : Nat) (serial : Serial) (l : LastResult) :
    (c.putResult slot serial l).framesOf slot = c.framesOf slot ++ [.testResult serial l] := by
  have judged := judge_places false ((c.enqueue (.testResult serial l) (.record slot)).updRecord slot fun r => { r with resultOwed := false })
  exact judged.framesOf.trans (enqueue_framesOf c _)

theorem offerRecord_makes (here : c.recordAt slot = some r) (free : r.releasePending = false) :
    Makes slot r r.owedOrders c (c.offerRecord slot) := by
  have offered {x : Controller} {y : Record} (there : x.recordAt slot = some y) (same : y.bare = r.bare) (orders : y.owedOrders = r.owedOrders)
      (serial : y.serial = r.serial) (frames : (c.framesOf slot).Sublist (x.framesOf slot)) :
      Makes slot r r.owedOrders c (x.offerOrders slot r.serial r.owedOrders) := by
    obtain ⟨left, kept, made⟩ := offerOrders_makes r.owedOrders x y there orders
    rw [serial] at made kept
    exact ⟨_, kept, by rw [← same, ← serial]; rfl, by rw [made]; exact frames.append_right _⟩
  unfold Controller.offerRecord Controller.offerRecordWith
  rw [here]
  dsimp only
  split
  · split
    · exact ⟨r, here, rfl, .refl _⟩
    · next l last =>
      split
      · rw [if_neg (ne_true_of_eq_false free)]
        refine offered (putResult_recordAt here r.serial) rfl rfl rfl ?_
        rw [putResult_framesOf]
        exact List.sublist_append_left _ _
      · exact ⟨r, here, rfl, .refl _⟩
  · exact offered here rfl rfl rfl (.refl _)

/-- Orders made stand behind the frames of their record in the order they were made, or are owed (R84, R157). -/
theorem makeOrders_makes (here : c.recordAt slot = some r) (free : r.releasePending = false) (l : List Order) :
    Makes slot r (r.owedOrders ++ l) c (c.makeOrders slot l) := by
  have owed : (c.updRecord slot fun r => { r with owedOrders := r.owedOrders ++ l }).recordAt slot =
      some { r with owedOrders := r.owedOrders ++ l } := by
    rw [recordAt_updRecord c slot (fun r => { r with owedOrders := r.owedOrders ++ l }) fun _ => rfl, here]
    rfl
  obtain ⟨x, there, same, made⟩ := (offerRecord_makes owed free).record
  exact ⟨x, there, same, made⟩

theorem order_body_injective (serial : Serial) : Function.Injective (Order.body serial) := fun a b same => by
  have := (body_order a serial).symm.trans ((congrArg Body.order? same).trans (body_order b serial))
  exact Option.some.inj this

/-- What is made stands in the queue or is owed. -/
theorem Makes.ordered {l : List Order} (h : Makes slot r l c d) {o : Order} (member : o ∈ l) : d.Ordered slot r.serial o := by
  obtain ⟨x, there, -, made⟩ := h.record
  rcases List.mem_append.mp (made.subset (List.mem_append_right _ (List.mem_map_of_mem member))) with queued | owed
  · obtain ⟨e, found, body⟩ := List.mem_map.mp queued
    obtain ⟨member, owner⟩ := List.mem_filter.mp found
    exact .inl ⟨e, member, beq_iff_eq.mp owner, body⟩
  · obtain ⟨x', member, same⟩ := List.mem_map.mp owed
    rw [order_body_injective _ same] at member
    exact .inr ⟨x, there, member⟩

/-! ### Orders made with a change of the record (R66, R155) -/

section Route
variable {f : Record → Record} (keeps : ∀ r, (f r).slot = r.slot) (here : c.recordAt slot = some r) (free : (f r).releasePending = false)
include keeps here free

theorem updRecord_makes (l : List Order) :
    Makes slot (f r) ((f r).owedOrders ++ l) c ((c.updRecord slot f).makeOrders slot l) := by
  have there : (c.updRecord slot f).recordAt slot = some (f r) := by
    rw [recordAt_updRecord c slot f keeps, here]
    rfl
  obtain ⟨x, found, same, made⟩ := (makeOrders_makes there free l).record
  exact ⟨x, found, same, made⟩

end Route

theorem routeTo_makes (here : c.recordAt slot = some r) (free : r.releasePending = false) (state : RecordState) (l : List Order) :
    Makes slot { r with state } (r.owedOrders ++ l) c (c.routeTo slot state l) :=
  updRecord_makes (f := fun r => { r with state }) (fun _ => rfl) here free l

theorem divert_makes (here : c.recordAt slot = some r) (free : r.releasePending = false) (v : Verdict) (lane : GateDest) :
    Makes slot { r with verdict := some v, state := .leaving } (r.owedOrders ++ [.gate lane]) c (c.divert slot v lane) :=
  updRecord_makes (f := fun r => { r with verdict := some v, state := .leaving }) (fun _ => rfl) here free _

/-! ### The route after a verdict (R155, R156) -/

/-- The record's orders to the stamp cell, with the marks it is to carry. -/
def Record.stampOrders (r : Record) (code : List Byte) : List Order := [.gate .stamp, .stamp (r.marks code)]

section Verdicts
variable (here : c.recordAt slot = some r)
include here

theorem route_stamps (verdict : r.verdict = some .pass ∨ (∃ k, r.verdict = some (.fail k)) ∧ r.spec.reference = none ∧ r.returnCondemned = some true) :
    c.route slot = c.routeTo slot .stamping (r.stampOrders c.line.items.plantCode) := by
  rw [Controller.route, here]
  dsimp only
  rcases verdict with pass | ⟨⟨k, fail⟩, ordinary, returned⟩
  · rw [pass]
    rfl
  · rw [fail]
    exact if_pos ⟨by rw [TypeEntry.isReference, ordinary]; rfl, returned⟩

theorem route_scraps {k : FailCause} (fail : r.verdict = some (.fail k)) (why : r.spec.reference ≠ none ∨ r.returnCondemned ≠ some true) :
    c.route slot = c.routeTo slot .scrapping [.gate .scrap, .scrap] := by
  rw [Controller.route, here]
  dsimp only
  rw [fail]
  refine if_neg fun ⟨ordinary, returned⟩ => why.elim (fun reference => reference ?_) fun kept => kept returned
  exact Option.isSome_eq_false_iff.mp ordinary |> Option.isNone_iff_eq_none.mp

theorem route_manual (verdict : r.verdict = some (.manual .secondInvalid)) : c.route slot = c.routeTo slot .leaving [.gate .manual] := by
  rw [Controller.route, here]
  dsimp only
  rw [verdict]

theorem route_reference {k} (verdict : r.verdict = some (.reference k)) : c.route slot = c.routeTo slot .leaving [.gate .reference] := by
  rw [Controller.route, here]
  dsimp only
  rw [verdict]

end Verdicts

/-! ### The marks (R159, R160) -/

theorem marks_pass {d : Date} (verdict : r.verdict = some .pass) (dated : r.verdictDate = some d) (code : List Byte) :
    r.marks code = passMarks code d r.spec.suffix := by
  rw [Record.marks, verdict, dated]
  rfl

theorem marks_fail {k : FailCause} (verdict : r.verdict = some (.fail k)) (code : List Byte) : r.marks code = condemnMarks code := by
  rw [Record.marks, verdict]

theorem passMarks_length {code : List Byte} (four : code.length = 4) (d : Date) (suffix : Option Byte) :
    (passMarks code d suffix).length = 10 + suffix.toList.length := by
  simp only [passMarks, twoDigits, List.length_append, List.length_cons, List.length_nil, four]

/-- Settles O32: the marks by their definition, and each verdict's route by the orders it makes. -/
theorem routeAfterVerdict : Obligations.RouteAfterVerdict := by
  refine ⟨fun r code four => ⟨fun d dated valid pass => ?_, fun k fail => ?_⟩, fun c r _ here free => ?_⟩
  · rw [marks_pass pass dated]
    refine ⟨by simp [passMarks, twoDigits], fun none => ?_, fun some => ?_⟩
    · rw [passMarks_length four, none]
      rfl
    · obtain ⟨x, suffix⟩ := Option.ne_none_iff_exists'.mp some
      rw [passMarks_length four, suffix]
      rfl
  · rw [marks_fail fail, condemnMarks, List.length_append, four]
    exact ⟨rfl, rfl⟩
  · intro d goes
    have routed {state : RecordState} {l : List Order} (made : c.route r.slot = c.routeTo r.slot state l) : goes state l := by
      obtain ⟨x, there, same, orders⟩ := (routeTo_makes here free state l).record
      rw [← made] at there orders
      have x_eq := eq_of_bare same.symm
      refine ⟨x, there, ?_, ?_, ?_, ?_⟩
      · rw [x_eq]
        exact sameIdentity_refl r
      · rw [x_eq]
      · rw [x_eq]
      · rw [List.map_append] at orders
        exact ((List.sublist_append_right _ _).trans (List.sublist_append_right _ _)).trans orders
    exact ⟨fun pass => routed (route_stamps here (.inl pass)),
      fun k fail ordinary returned => routed (route_stamps here (.inr ⟨⟨k, fail⟩, ordinary, returned⟩)),
      fun k fail why => routed (route_scraps here fail why), fun manual => routed (route_manual here manual),
      fun k reference => routed (route_reference here reference)⟩

end Sys2Proof.Machine
end

section
/-! SUPPORT. The dispositions of the mass and of the findings (O17, O18, R63 to R72). -/
namespace Sys2Proof.Machine

variable {c d : Controller} {slot : Nat} {r : Record} {serial : Serial}

/-! ### A record that an operation finds and leaves -/

theorem Changes.registerSound (h : Changes c d) (sound : c.RegisterSound) : d.RegisterSound := by
  induction h with
  | refl => exact sound
  | tail _ k ih => exact k.registerSound ih

theorem Serves.registerSound (h : Serves c d) (sound : c.RegisterSound) : d.RegisterSound :=
  registerSound_of_views (by
    have := h.records.map Record.view
    rwa [map_view_bare, map_view_bare] at this) sound

theorem recordOf_of_recordAt (sound : c.RegisterSound) (here : c.recordAt slot = some r) : c.recordOf r.serial = some r :=
  (recordOf_iff sound).mpr ⟨recordAt_mem here, rfl⟩

/-- The record has this form but for the frames it owes, and these orders of it have been made. -/
def Controller.Gives (c : Controller) (r : Record) (l : List Order) : Prop :=
  ∃ r', c.recordOf r.serial = some r' ∧ r'.bare = r.bare ∧ ∀ o ∈ l, c.Ordered r.slot r.serial o

/-- What a serial finds of a record that an operation gives. -/
theorem Controller.Gives.found {y : Record} {l : List Order} (h : d.Gives y l) (same : r.SameIdentity y) (named : r.serial = serial) :
    ∃ r', d.recordOf serial = some r' ∧ r.SameIdentity r' ∧
      (r'.mass = y.mass ∧ r'.findings = y.findings ∧ r'.verdict = y.verdict ∧ r'.state = y.state) ∧ ∀ o ∈ l, d.Ordered r.slot serial o := by
  obtain ⟨x, found, bare, ordered⟩ := h
  have fields := eq_of_bare bare.symm
  rw [same.2.1, named] at found ordered
  rw [same.1] at ordered
  exact ⟨x, found, same.trans (sameIdentity_of_bare bare.symm), by rw [fields]; exact ⟨rfl, rfl, rfl, rfl⟩, ordered⟩

section Gives
variable {f : Record → Record} {l : List Order} (sound : c.RegisterSound)
include sound

theorem makeOrders_gives (here : c.recordAt slot = some r) (free : r.releasePending = false) : (c.makeOrders slot l).Gives r l := by
  have made := makeOrders_makes here free l
  obtain ⟨x, there, same, -⟩ := made.record
  refine ⟨x, ?_, same, fun o member => ?_⟩
  · rw [← (sameIdentity_of_bare same.symm).2.1]
    exact recordOf_of_recordAt ((makeOrders_serves _ _ _).registerSound sound) there
  · rw [recordAt_slot here]
    exact made.ordered (List.mem_append_right _ member)

theorem updRecord_gives (here : c.recordAt r.slot = some r) (keeps : ∀ r, (f r).serial = r.serial ∧ (f r).slot = r.slot)
    (free : (f r).releasePending = false) : ((c.updRecord r.slot f).makeOrders r.slot l).Gives (f r) l := by
  refine makeOrders_gives (registerSound_updRecord sound r.slot keeps) ?_ free
  rw [recordAt_updRecord c r.slot f fun r => (keeps r).2, here]
  rfl

end Gives

section Dispositions
variable (sound : c.RegisterSound) (here : c.recordAt r.slot = some r) (free : r.releasePending = false)
include sound here free

theorem divert_gives (v : Verdict) (lane : GateDest) :
    (c.divert r.slot v lane).Gives { r with verdict := some v, state := .leaving } [.gate lane] :=
  updRecord_gives (f := fun r => { r with verdict := some v, state := .leaving }) sound here (fun _ => ⟨rfl, rfl⟩) free

theorem routeTo_gives (state : RecordState) (l : List Order) : (c.routeTo r.slot state l).Gives { r with state } l :=
  updRecord_gives (f := fun r => { r with state }) sound here (fun _ => ⟨rfl, rfl⟩) free

theorem condemn_gives (ordinary : r.spec.reference = none) (cause : FailCause) :
    (r.returnCondemned = some true → (c.condemn r.slot cause).Gives { r with verdict := some (.fail cause), state := .stamping }
      [.gate .stamp, .stamp (condemnMarks c.line.items.plantCode)]) ∧
    (r.returnCondemned ≠ some true → (c.condemn r.slot cause).Gives { r with verdict := some (.fail cause), state := .scrapping }
      [.gate .scrap, .scrap]) := by
  have judged_sound := registerSound_updRecord sound r.slot (f := fun r => { r with verdict := some (.fail cause) }) fun _ => ⟨rfl, rfl⟩
  have there : (c.updRecord r.slot fun r => { r with verdict := some (.fail cause) }).recordAt r.slot =
      some { r with verdict := some (.fail cause) } := by
    rw [recordAt_updRecord c r.slot (fun r => { r with verdict := some (.fail cause) }) fun _ => rfl, here]
    rfl
  refine ⟨fun returned => ?_, fun kept => ?_⟩
  · have made := route_stamps there (.inr ⟨⟨cause, rfl⟩, ordinary, returned⟩)
    rw [Record.stampOrders, marks_fail (r := { r with verdict := some (.fail cause) }) rfl] at made
    rw [Controller.condemn, made]
    exact routeTo_gives (r := { r with verdict := some (.fail cause) }) judged_sound there free _ _
  · rw [Controller.condemn, route_scraps there rfl (.inr kept)]
    exact routeTo_gives (r := { r with verdict := some (.fail cause) }) judged_sound there free _ _

end Dispositions

/-! ### The mass (R63 to R65) -/


theorem judgeMass_noTare (e : TypeEntry) (m : Nat) : judgeMass e 0 m = .noTare := rfl

theorem judgeMass_loss {e : TypeEntry} {t m : Nat} (below : m < t) (beyond : e.massLoss < ((t - m) * 1000 + t / 2) / t) :
    judgeMass e t m = .loss := (judgeMass_of_below e below).trans (if_pos beyond)

theorem judgeMass_gain {e : TypeEntry} {t m : Nat} (some : 0 < t) (above : t < m)
    (beyond : e.massGain < min 1000 (((m - t) * 1000 + t / 2) / t)) : judgeMass e t m = .gain :=
  (judgeMass_of_above e some above).trans (if_pos beyond)

section Mass
variable {m : Nat} (awaits : c.awaiting serial .admitted = .ok r)
include awaits

theorem takeMass_weighs (why : r.spec.isReference = true ∨ judgeMass r.spec r.tare m = .within) :
    c.takeMass serial m = c.updRecord r.slot fun r => { r with mass := some m, state := .weighed } := by
  have weighed := updRecord_updRecord c r.slot (fun r => { r with mass := some m }) (fun r => { r with state := .weighed }) fun _ => rfl
  rw [Controller.takeMass, awaits]
  dsimp only
  split
  · exact weighed
  · next ordinary =>
    rw [why.resolve_left ordinary]
    exact weighed

theorem takeMass_judged (ordinary : r.spec.isReference = false) :
    (judgeMass r.spec r.tare m = .noTare →
      c.takeMass serial m = (c.updRecord r.slot fun r => { r with mass := some m }).divert r.slot (.manual .noTare) .manual) ∧
    (judgeMass r.spec r.tare m = .loss →
      c.takeMass serial m = (c.updRecord r.slot fun r => { r with mass := some m }).condemn r.slot .massLoss) ∧
    (judgeMass r.spec r.tare m = .gain →
      c.takeMass serial m = (c.updRecord r.slot fun r => { r with mass := some m }).divert r.slot (.manual .massGain) .manual) := by
  rw [Controller.takeMass, awaits]
  dsimp only
  rw [if_neg (ne_true_of_eq_false ordinary)]
  refine ⟨fun judged => ?_, fun judged => ?_, fun judged => ?_⟩ <;> rw [judged]

end Mass

/-- Settles O17: the judgment of the mass decides the orders, which the record then has made. -/
theorem massReadingDisposes : Obligations.MassReadingDisposes := by
  intro s h p serial m r hears role read sound found state free ordinary
  have run := exec_massReading hears role
  rw [read, Option.elim_some] at run
  generalize heard_eq : heard s.part h 2 p = c at run
  have c_sound : c.RegisterSound := by rw [← heard_eq]; exact sound
  have c_found : c.recordOf serial = some r := by rw [← heard_eq]; exact found
  have awaits := awaiting_some c_found state free
  have plain : r.spec.isReference = false := by rw [TypeEntry.isReference, ordinary]; rfl
  have named := ((recordOf_iff c_sound).mp c_found).2
  have line : (c.updRecord r.slot fun r => { r with mass := some m }).line = s.part.line := by rw [← heard_eq]; rfl
  have there : (c.updRecord r.slot fun r => { r with mass := some m }).recordAt r.slot = some { r with mass := some m } := by
    rw [recordAt_updRecord c r.slot (fun r => { r with mass := some m }) fun _ => rfl, recordAt_of_recordOf c_sound c_found]
    rfl
  have x_sound := registerSound_updRecord c_sound r.slot (f := fun r => { r with mass := some m }) fun _ => ⟨rfl, rfl⟩
  obtain ⟨noTare, loss, gain⟩ := takeMass_judged awaits (m := m) plain
  cases judged : judgeMass r.spec r.tare m with
  | noTare =>
    have gives := divert_gives (r := { r with mass := some m }) x_sound there free (.manual .noTare) .manual
    rw [← noTare judged] at gives
    obtain ⟨x, here, same, ⟨mass, -, verdict, state⟩, ordered⟩ := gives.found (sameIdentity_refl r) named
    refine ⟨_, x, run, here, same, mass, fun _ => ⟨verdict, state, ordered _ (List.mem_singleton_self _)⟩, fun below beyond => ?_,
      fun some above beyond => ?_, nofun⟩
    · cases judged.symm.trans (judgeMass_loss below beyond)
    · cases judged.symm.trans (judgeMass_gain some above beyond)
  | loss =>
    obtain ⟨stamps, scraps⟩ := condemn_gives (r := { r with mass := some m }) x_sound there free ordinary .massLoss
    rw [← loss judged] at stamps scraps
    have unweighed : r.tare ≠ 0 := fun zero => by
      rw [zero] at judged
      cases judged
    by_cases returned : r.returnCondemned = some true
    · obtain ⟨x, here, same, ⟨mass, -, verdict, state⟩, ordered⟩ := (stamps returned).found (sameIdentity_refl r) named
      rw [line] at ordered
      refine ⟨_, x, run, here, same, mass, fun zero => absurd zero unweighed, fun _ _ => ⟨verdict, fun _ => ⟨state, ordered _ ?_, ordered _ ?_⟩,
        fun kept => absurd returned kept⟩, fun some above beyond => ?_, nofun⟩
      · exact List.mem_cons_self
      · exact List.mem_cons_of_mem _ (List.mem_singleton_self _)
      · cases judged.symm.trans (judgeMass_gain some above beyond)
    · obtain ⟨x, here, same, ⟨mass, -, verdict, state⟩, ordered⟩ := (scraps returned).found (sameIdentity_refl r) named
      refine ⟨_, x, run, here, same, mass, fun zero => absurd zero unweighed, fun _ _ => ⟨verdict, fun yes => absurd yes returned,
        fun _ => ⟨state, ordered _ ?_, ordered _ ?_⟩⟩, fun some above beyond => ?_, nofun⟩
      · exact List.mem_cons_self
      · exact List.mem_cons_of_mem _ (List.mem_singleton_self _)
      · cases judged.symm.trans (judgeMass_gain some above beyond)
  | gain =>
    have gives := divert_gives (r := { r with mass := some m }) x_sound there free (.manual .massGain) .manual
    rw [← gain judged] at gives
    obtain ⟨x, here, same, ⟨mass, -, verdict, state⟩, ordered⟩ := gives.found (sameIdentity_refl r) named
    refine ⟨_, x, run, here, same, mass, fun zero => ?_, fun below beyond => ?_,
      fun _ _ _ => ⟨verdict, state, ordered _ (List.mem_singleton_self _)⟩, nofun⟩
    · rw [zero] at judged
      cases judged
    · cases judged.symm.trans (judgeMass_loss below beyond)
  | within =>
    rw [takeMass_weighs awaits (.inr judged)] at run
    refine ⟨_, _, run, recordOf_updRecord c_sound c_found fun _ => ⟨rfl, rfl⟩, sameIdentity_refl r, rfl, fun zero => ?_, fun below beyond => ?_,
      fun some above beyond => ?_, fun _ => ⟨rfl, by rw [← heard_eq]; rfl, by rw [← heard_eq]; rfl⟩⟩
    · rw [zero] at judged
      cases judged
    · cases judged.symm.trans (judgeMass_loss below beyond)
    · cases judged.symm.trans (judgeMass_gain some above beyond)

end Sys2Proof.Machine
end

section
/-! SUPPORT. The disposition of the findings (O18, R69 to R72), and what the passes leave of a record (R79 to R83). -/
namespace Sys2Proof.Machine

variable {c d : Controller} {slot : Nat} {r : Record} {serial : Serial}

/-! ### A record through the passes -/

/-- A property of a record that does not look at the frames it owes, and that an assignment and a failed chain check keep (R82, R83). -/
structure Enduring (p : Record → Prop) : Prop where
  bare : ∀ {r x : Record}, r.bare = x.bare → p r → p x
  routed : ∀ {r : Record} (n : JacketNo), p r → p { r with state := .routed, jacket := some n }
  faulted : ∀ {r : Record}, p r → p { r with verdict := some (.manual .program), state := .leaving }

/-- No two records share a slot, and the record in this slot, whose release is not pending, has this property. -/
structure Stands (slot : Nat) (p : Record → Prop) (c : Controller) : Prop where
  distinct : c.SlotsDistinct
  record : ∃ r, c.recordAt slot = some r ∧ r.releasePending = false ∧ p r

section Stands
variable {p : Record → Prop}

theorem Stands.of_records (records : d.records = c.records) (h : Stands slot p c) : Stands slot p d := by
  obtain ⟨distinct, r, here, rest⟩ := h
  exact ⟨by rw [Controller.SlotsDistinct, records]; exact distinct, r, by rw [Controller.recordAt, records]; exact here, rest⟩

theorem Serves.stands (serves : Serves c d) (bare : ∀ {r x : Record}, r.bare = x.bare → p r → p x) (h : Stands slot p c) : Stands slot p d := by
  obtain ⟨distinct, r, here, free, holds⟩ := h
  have kept : r.bare ∈ (c.records.map Record.bare).filter Record.stays :=
    List.mem_filter.mpr ⟨List.mem_map_of_mem (recordAt_mem here), by rw [Record.stays, Bool.not_eq_true']; exact free⟩
  rw [← serves.standing distinct] at kept
  obtain ⟨x, member, same⟩ := List.mem_map.mp (List.mem_filter.mp kept).1
  have fields := eq_of_bare same.symm
  refine ⟨serves.slotsDistinct distinct, x, ?_, ?_, bare same.symm holds⟩
  · have at_slot : x.slot = slot := (sameIdentity_of_bare same.symm).1.trans (recordAt_slot here)
    rw [← at_slot]
    exact recordAt_of_mem (serves.slotsDistinct distinct) member
  · rw [fields]
    exact free

theorem Stands.updRecord (h : Stands slot p c) (s : Nat) {f : Record → Record}
    (keeps : ∀ r, (f r).slot = r.slot ∧ (f r).releasePending = r.releasePending) (holds : ∀ r, p r → p (f r)) : Stands slot p (c.updRecord s f) := by
  obtain ⟨distinct, r, here, free, holds'⟩ := h
  refine ⟨?_, ?_⟩
  · rw [Controller.SlotsDistinct, map_updRecord c s f Record.slot fun r => (keeps r).1]
    exact distinct
  · by_cases same : slot = s
    · refine ⟨f r, ?_, (keeps r).2.trans free, holds r holds'⟩
      rw [← same, recordAt_updRecord c slot f fun r => (keeps r).1, here]
      rfl
    · exact ⟨r, (recordAt_updRecord_other c same fun r => (keeps r).1).trans here, free, holds'⟩

variable (enduring : Enduring p)
include enduring

theorem assign_stands (h : Stands slot p c) (x : Record) (n : JacketNo) : Stands slot p (c.assign x n) := by
  unfold Controller.assign
  exact (makeOrders_serves _ _ _).stands enduring.bare
    (Stands.of_records (c := c.updRecord x.slot _) rfl (h.updRecord x.slot (fun _ => ⟨rfl, rfl⟩) fun _ => enduring.routed n))

theorem programFault_stands (h : Stands slot p c) (x : Record) : Stands slot p (c.programFault x) := by
  unfold Controller.programFault Controller.divert
  exact ((makeOrders_serves _ _ _).trans (raise_serves _ _ _ _)).stands enduring.bare
    (h.updRecord x.slot (fun _ => ⟨rfl, rfl⟩) fun _ => enduring.faulted)

theorem jacketPass_stands (h : Stands slot p c) (n : JacketNo) : Stands slot p (c.jacketPass n) := by
  have depth (k : Nat) (c : Controller) (h : Stands slot p c) : Stands slot p (Controller.jacketPassDepth k c n) := by
    induction k generalizing c with
    | zero => exact h
    | succ k ih =>
      unfold Controller.jacketPassDepth
      split
      · exact h
      · next x _ =>
        split
        · exact assign_stands enduring h x n
        · exact ih _ (programFault_stands enduring h x)
  unfold Controller.jacketPass
  split
  · exact depth _ c h
  · exact h

theorem recordPass_stands (h : Stands slot p c) (s : Nat) : Stands slot p (c.recordPass s) := by
  unfold Controller.recordPass
  split
  · split
    · exact h
    · next x _ =>
      split
      · split
        · exact h
        · next n _ =>
          split
          · exact assign_stands enduring h x n
          · exact jacketPass_stands enduring (programFault_stands enduring h x) n
      · exact h
  · exact h

end Stands

/-- With no IDLE jacket a record pass finds none for its record (R77, R79). -/
theorem recordPass_of_no_idle (busy : ∀ n, (c.jacket n).state ≠ .idle) (slot : Nat) : c.recordPass slot = c := by
  have none (r : Record) : c.jacketFor r = none := by
    have unfit (n : JacketNo) : c.eligible n r = false := by
      have : ((c.jacket n).state == .idle) = false := beq_eq_false_iff_ne.mpr (busy n)
      rw [Controller.eligible, this, Bool.false_and, Bool.false_and, Bool.false_and, Bool.false_and]
    have lowest : (jacketNumbers.find? fun n => c.eligible n r) = none := List.find?_eq_none.mpr fun n _ => ne_true_of_eq_false (unfit n)
    have unverified : (jacketNumbers.find? fun n => c.eligible n r && !(c.verif n).verified) = none :=
      List.find?_eq_none.mpr fun n _ => by rw [unfit n, Bool.false_and]; exact Bool.false_ne_true
    rw [Controller.jacketFor, lowest, unverified]
    exact ite_self _
  unfold Controller.recordPass
  split
  · split
    · rfl
    · next r _ =>
      rw [none r]
      exact ite_self _
  · rfl

/-! ### The governing action (R26, R70) -/

theorem foldl_highest (l : List Action) (a : Action) :
    let g := l.foldl (fun a b => if a.rank < b.rank then b else a) a
    (g = a ∨ g ∈ l) ∧ a.rank ≤ g.rank ∧ ∀ b ∈ l, b.rank ≤ g.rank := by
  induction l generalizing a with
  | nil => exact ⟨.inl rfl, le_rfl, nofun⟩
  | cons b l ih =>
    rw [List.foldl_cons]
    by_cases higher : a.rank < b.rank
    · rw [if_pos higher]
      obtain ⟨one, first, all⟩ := ih b
      exact ⟨.inr (one.elim (fun same => by rw [same]; exact List.mem_cons_self) (List.mem_cons_of_mem b)), higher.le.trans first,
        fun x member => (List.mem_cons.mp member).elim (fun same => by rw [same]; exact first) (all x)⟩
    · rw [if_neg higher]
      obtain ⟨one, first, all⟩ := ih a
      exact ⟨one.imp id (List.mem_cons_of_mem b), first,
        fun x member => (List.mem_cons.mp member).elim (fun same => by rw [same]; exact (not_lt.mp higher).trans first) (all x)⟩

theorem readFindings_small {p : List Byte} {codes : List Nat} (read : readFindings p = some (serial, codes)) : ∀ x ∈ codes, x < 256 := by
  unfold readFindings at read
  split at read
  · split at read
    · cases read
      intro x member
      obtain ⟨b, -, rfl⟩ := List.mem_map.mp member
      exact b.isLt
    · cases read
  · cases read

section Governing
variable {t : Tables} {codes : List Nat}

/-- The governing action is some code's, or ACCEPT, and no code's action stands higher. -/
theorem governing_highest (small : ∀ x ∈ codes, x < 256) :
    (t.governing codes = .accept ∨ ∃ x ∈ codes, t.defects[x]? = some (t.governing codes)) ∧
      ∀ x ∈ codes, ∀ a, t.defects[x]? = some a → a.rank ≤ (t.governing codes).rank := by
  obtain ⟨one, -, all⟩ := foldl_highest (codes.map fun code => (t.defects[code]?).getD .manual) .accept
  refine ⟨one.imp id fun member => ?_, fun x member a entry => ?_⟩
  · obtain ⟨x, member, same⟩ := List.mem_map.mp member
    refine ⟨x, member, ?_⟩
    rw [Tables.governing, ← same, Vector.getElem?_eq_getElem (small x member)]
    rfl
  · refine all a (List.mem_map.mpr ⟨x, member, ?_⟩)
    rw [entry]
    rfl

variable (small : ∀ x ∈ codes, x < 256)
include small

theorem governing_manual (some : ∃ x ∈ codes, t.defects[x]? = some .manual) : t.governing codes = .manual := by
  obtain ⟨-, all⟩ := governing_highest (t := t) small
  obtain ⟨x, member, entry⟩ := some
  have := all x member _ entry
  generalize t.governing codes = g at this
  cases g with
  | manual => rfl
  | _ => exact absurd this (by decide)

theorem governing_condemn (none : ∀ x ∈ codes, t.defects[x]? ≠ some .manual) (some : ∃ x ∈ codes, t.defects[x]? = some .condemn) :
    t.governing codes = .condemn := by
  obtain ⟨one, all⟩ := governing_highest (t := t) small
  obtain ⟨x, member, entry⟩ := some
  have := all x member _ entry
  generalize t.governing codes = g at this one
  cases g with
  | condemn => rfl
  | manual =>
    obtain ⟨y, member, entry⟩ := one.resolve_left nofun
    exact absurd entry (none y member)
  | _ => exact absurd this (by decide)

theorem governing_rework (none : ∀ x ∈ codes, t.defects[x]? ≠ some .manual ∧ t.defects[x]? ≠ some .condemn)
    (some : ∃ x ∈ codes, t.defects[x]? = some .rework) : t.governing codes = .rework := by
  obtain ⟨one, all⟩ := governing_highest (t := t) small
  obtain ⟨x, member, entry⟩ := some
  have := all x member _ entry
  generalize t.governing codes = g at this one
  cases g with
  | rework => rfl
  | accept => exact absurd this (by decide)
  | manual =>
    obtain ⟨y, member, entry⟩ := one.resolve_left nofun
    exact absurd entry (none y member).1
  | condemn =>
    obtain ⟨y, member, entry⟩ := one.resolve_left nofun
    exact absurd entry (none y member).2

theorem governing_accept (all : ∀ x ∈ codes, t.defects[x]? = some .accept) : t.governing codes = .accept := by
  rcases (governing_highest (t := t) small).1 with accepts | ⟨x, member, entry⟩
  · exact accepts
  · exact (Option.some.inj ((all x member).symm.trans entry)).symm

end Governing

/-! ### The findings of a record (R69 to R72) -/

section Findings
variable {codes : List Nat} (short : codes.length ≤ 8) (awaits : c.awaiting serial .weighed = .ok r)
include short awaits

theorem takeFindings_waits (why : r.spec.isReference = true ∨ c.tables.governing codes = .accept) :
    c.takeFindings serial codes =
      (c.updRecord r.slot fun x => { x with findings := some codes, state := .waiting, jacket := none }).recordPass r.slot := by
  have waits : (c.updRecord r.slot fun r => { r with findings := some codes }).enterWaiting r.slot =
      (c.updRecord r.slot fun x => { x with findings := some codes, state := .waiting, jacket := none }).recordPass r.slot :=
    congrArg (fun d : Controller => d.recordPass r.slot)
      (updRecord_updRecord c r.slot (fun r => { r with findings := some codes }) (fun r => { r with state := .waiting, jacket := none }) fun _ => rfl)
  rw [Controller.takeFindings, if_neg (Nat.not_lt.mpr short), awaits]
  dsimp only
  split
  · exact waits
  · next ordinary =>
    rw [why.resolve_left ordinary]
    exact waits

theorem takeFindings_judged (ordinary : r.spec.isReference = false) :
    (c.tables.governing codes = .manual → c.takeFindings serial codes =
      (c.updRecord r.slot fun r => { r with findings := some codes }).divert r.slot (.manual .defect) .manual) ∧
    (c.tables.governing codes = .condemn → c.takeFindings serial codes =
      (c.updRecord r.slot fun r => { r with findings := some codes }).condemn r.slot .defect) ∧
    (c.tables.governing codes = .rework → c.takeFindings serial codes =
      (c.updRecord r.slot fun r => { r with findings := some codes }).divert r.slot .rework .rework) := by
  rw [Controller.takeFindings, if_neg (Nat.not_lt.mpr short), awaits]
  dsimp only
  rw [if_neg (ne_true_of_eq_false ordinary)]
  refine ⟨fun judged => ?_, fun judged => ?_, fun judged => ?_⟩ <;> rw [judged]

end Findings

/-- The record that has become WAITING keeps what admission fixed and its findings, whatever its pass does (R79 to R83). -/
theorem waits_found (sound : c.RegisterSound) (found : c.recordOf serial = some r) (free : r.releasePending = false) (codes : List Nat) :
    ∃ r', ((c.updRecord r.slot fun x => { x with findings := some codes, state := .waiting, jacket := none }).recordPass r.slot).recordOf
      serial = some r' ∧ r.SameIdentity r' ∧ r'.findings = some codes := by
  have enduring : Enduring fun x => r.SameIdentity x ∧ x.findings = some codes :=
    ⟨fun same holds => ⟨holds.1.trans (sameIdentity_of_bare same), by rw [eq_of_bare same]; exact holds.2⟩, fun _ holds => holds, id⟩
  have x_sound := registerSound_updRecord sound r.slot (f := fun x => { x with findings := some codes, state := .waiting, jacket := none })
    fun _ => ⟨rfl, rfl⟩
  have there : (c.updRecord r.slot fun x => { x with findings := some codes, state := .waiting, jacket := none }).recordAt r.slot =
      some { r with findings := some codes, state := .waiting, jacket := none } := by
    rw [recordAt_updRecord c r.slot (fun x => { x with findings := some codes, state := .waiting, jacket := none }) fun _ => rfl,
      recordAt_of_recordOf sound found]
    rfl
  obtain ⟨-, x, here, -, same, kept⟩ := recordPass_stands enduring
    (Stands.mk x_sound.2.2.1 ⟨_, there, free, sameIdentity_refl r, rfl⟩) r.slot
  have left := recordOf_of_recordAt ((recordPass_settles _ r.slot).changes.registerSound x_sound) here
  rw [same.2.1, ((recordOf_iff sound).mp found).2] at left
  exact ⟨x, left, same, kept⟩

/-- With no IDLE jacket it stays WAITING. -/
theorem waits_still (sound : c.RegisterSound) (found : c.recordOf serial = some r) (codes : List Nat) (busy : ∀ n, (c.jacket n).state ≠ .idle) :
    ((c.updRecord r.slot fun x => { x with findings := some codes, state := .waiting, jacket := none }).recordPass r.slot).recordOf
      serial = some { r with findings := some codes, state := .waiting, jacket := none } ∧
    ((c.updRecord r.slot fun x => { x with findings := some codes, state := .waiting, jacket := none }).recordPass r.slot).ring.queue =
      c.ring.queue := by
  rw [recordPass_of_no_idle (c := c.updRecord r.slot _) busy]
  exact ⟨recordOf_updRecord sound found (f := fun x => { x with findings := some codes, state := .waiting, jacket := none })
    fun _ => ⟨rfl, rfl⟩, rfl⟩

theorem exec_findings {s : State} {h : Header} {p : List Byte} {codes : List Nat} (hears : s.part.Hears h p.length)
    (role : s.part.roleAt h.source.toNat = .visual) (read : readFindings p = some (serial, codes)) :
    exec (.visualFindings h p) s = .next (s.withPart ((heard s.part h 3 p).takeFindings serial codes)) := by
  have run := exec_visualFindings hears role
  rwa [read, Option.elim_some] at run

/-- Settles O18: the governing action decides, and a reference piece is weighed and waits whatever is found. -/
theorem findingsDispose : Obligations.FindingsDispose := by
  refine ⟨fun s h p serial codes r hears role read short sound found state free ordinary => ?_,
    fun s h p serial r hears sound found free reference => ⟨fun m role read state => ?_, fun codes role read short state => ?_⟩⟩
  · have run := exec_findings hears role read
    have small := readFindings_small read
    have heard_eq : heard s.part h 3 p = s.part.placeForward ({ header := h, kind := 3, payload := p } : Frame).wire := rfl
    have c_sound : (heard s.part h 3 p).RegisterSound := sound
    have c_found : (heard s.part h 3 p).recordOf serial = some r := found
    have busy : (∀ n, (s.part.jacket n).state ≠ .idle) → ∀ n, ((heard s.part h 3 p).jacket n).state ≠ .idle := id
    have queue : (heard s.part h 3 p).ring.queue = s.part.ring.queue := rfl
    have manual := governing_manual (t := s.part.tables) small
    have condemn := governing_condemn (t := s.part.tables) small
    have rework := governing_rework (t := s.part.tables) small
    have accept := governing_accept (t := s.part.tables) small
    have governing : (heard s.part h 3 p).tables.governing codes = s.part.tables.governing codes := rfl
    rw [← heard_eq]
    generalize heard s.part h 3 p = c at *
    have awaits := awaiting_some c_found state free
    have plain : r.spec.isReference = false := by rw [TypeEntry.isReference, ordinary]; rfl
    have named := ((recordOf_iff c_sound).mp c_found).2
    have there : (c.updRecord r.slot fun r => { r with findings := some codes }).recordAt r.slot = some { r with findings := some codes } := by
      rw [recordAt_updRecord c r.slot (fun r => { r with findings := some codes }) fun _ => rfl, recordAt_of_recordOf c_sound c_found]
      rfl
    have x_sound := registerSound_updRecord c_sound r.slot (f := fun r => { r with findings := some codes }) fun _ => ⟨rfl, rfl⟩
    have judged := takeFindings_judged short awaits plain
    rw [governing] at judged
    obtain ⟨diverts, condemns, reworks⟩ := judged
    cases governed : s.part.tables.governing codes with
    | manual =>
      have gives := divert_gives (r := { r with findings := some codes }) x_sound there free (.manual .defect) .manual
      rw [← diverts governed] at gives
      obtain ⟨x, here, same, ⟨-, kept, verdict, state⟩, ordered⟩ := gives.found (sameIdentity_refl r) named
      refine ⟨_, x, run, here, same, kept, fun _ => ⟨verdict, state, ordered _ (List.mem_singleton_self _)⟩, fun none some => ?_,
        fun none some => ?_, fun all => ?_, fun all => ?_⟩
      · cases governed.symm.trans (condemn none some)
      · cases governed.symm.trans (rework none some)
      · cases governed.symm.trans (accept all)
      · cases governed.symm.trans (accept all)
    | condemn =>
      obtain ⟨stamps, scraps⟩ := condemn_gives (r := { r with findings := some codes }) x_sound there free ordinary .defect
      rw [← condemns governed] at stamps scraps
      by_cases returned : r.returnCondemned = some true
      · obtain ⟨x, here, same, ⟨-, kept, verdict, state⟩, ordered⟩ := (stamps returned).found (sameIdentity_refl r) named
        refine ⟨_, x, run, here, same, kept, fun some => ?_,
          fun _ _ => ⟨verdict, fun _ => ⟨state, ordered _ List.mem_cons_self⟩, fun not => absurd returned not⟩,
          fun none some => ?_, fun all => ?_, fun all => ?_⟩
        · cases governed.symm.trans (manual some)
        · cases governed.symm.trans (rework none some)
        · cases governed.symm.trans (accept all)
        · cases governed.symm.trans (accept all)
      · obtain ⟨x, here, same, ⟨-, kept, verdict, state⟩, ordered⟩ := (scraps returned).found (sameIdentity_refl r) named
        refine ⟨_, x, run, here, same, kept, fun some => ?_,
          fun _ _ => ⟨verdict, fun yes => absurd yes returned, fun _ => ⟨state, ordered _ List.mem_cons_self⟩⟩,
          fun none some => ?_, fun all => ?_, fun all => ?_⟩
        · cases governed.symm.trans (manual some)
        · cases governed.symm.trans (rework none some)
        · cases governed.symm.trans (accept all)
        · cases governed.symm.trans (accept all)
    | rework =>
      have gives := divert_gives (r := { r with findings := some codes }) x_sound there free .rework .rework
      rw [← reworks governed] at gives
      obtain ⟨x, here, same, ⟨-, kept, verdict, state⟩, ordered⟩ := gives.found (sameIdentity_refl r) named
      refine ⟨_, x, run, here, same, kept, fun some => ?_, fun none some => ?_,
        fun _ _ => ⟨verdict, state, ordered _ (List.mem_singleton_self _)⟩, fun all => ?_, fun all => ?_⟩
      · cases governed.symm.trans (manual some)
      · cases governed.symm.trans (condemn none some)
      · cases governed.symm.trans (accept all)
      · cases governed.symm.trans (accept all)
    | accept =>
      have waits := takeFindings_waits short awaits (.inr (governing.trans governed))
      rw [waits] at run
      obtain ⟨x, here, same, kept⟩ := waits_found c_sound c_found free codes
      refine ⟨_, x, run, here, same, kept, fun some => ?_, fun none some => ?_, fun none some => ?_, fun _ idle => ?_, fun _ => rfl⟩
      · cases governed.symm.trans (manual some)
      · cases governed.symm.trans (condemn none some)
      · cases governed.symm.trans (rework none some)
      · obtain ⟨still, same⟩ := waits_still c_sound c_found codes (busy idle)
        exact ⟨Option.some.inj (here.symm.trans still), same.trans queue⟩
  · have run := exec_massReading hears role
    rw [read, Option.elim_some] at run
    have c_found : (heard s.part h 2 p).recordOf serial = some r := found
    have piece : r.spec.isReference = true := Option.isSome_iff_ne_none.mpr reference
    have weighs := takeMass_weighs (awaiting_some c_found state free) (m := m) (.inl piece)
    rw [weighs] at run
    exact ⟨_, run, recordOf_updRecord (c := heard s.part h 2 p) sound c_found fun _ => ⟨rfl, rfl⟩, rfl⟩
  · have run := exec_findings hears role read
    have c_found : (heard s.part h 3 p).recordOf serial = some r := found
    have piece : r.spec.isReference = true := Option.isSome_iff_ne_none.mpr reference
    rw [takeFindings_waits short (awaiting_some c_found state free) (.inl piece)] at run
    refine ⟨run, fun busy => ⟨_, run, ?_⟩⟩
    exact waits_still (c := heard s.part h 3 p) sound c_found codes busy
end Sys2Proof.Machine
end

section
/-! SUPPORT. Orders that stand no longer and records that are held (R43, R84), and the reports of the stamp and scrap cells (O33, R161 to R164). -/
namespace Sys2Proof.Machine

variable {c d : Controller} {slot : Nat} {r : Record} {serial : Serial}

/-! ### Records that offers and withdrawals leave -/

theorem Serves.recordAt (serves : Serves c d) (distinct : c.SlotsDistinct) (here : c.recordAt slot = some r) (free : r.releasePending = false) :
    ∃ x, d.recordAt slot = some x ∧ x.bare = r.bare := by
  obtain ⟨-, x, there, -, same⟩ := serves.stands (p := fun x => x.bare = r.bare) (fun same holds => same.symm.trans holds) ⟨distinct, r, here, free, rfl⟩
  exact ⟨x, there, same⟩

/-- The line stands while a record stays. -/
theorem Serves.line_of_kept (serves : Serves c d) (distinct : c.SlotsDistinct) (here : c.recordAt slot = some r)
    (free : r.releasePending = false) : d.line = c.line := by
  rcases serves.line with same | ⟨-, -, empty⟩
  · exact same
  · obtain ⟨x, there, -⟩ := serves.recordAt distinct here free
    have member := recordAt_mem there
    rw [empty] at member
    cases member

/-! ### A record without orders (R84) -/

/-- The record in a slot owes no order. -/
def OwesNone (slot : Nat) (c : Controller) : Prop := ∀ r, c.recordAt slot = some r → r.owedOrders = []

/-- The record in a slot owes no TEST RESULT. -/
def OwesNoResult (slot : Nat) (c : Controller) : Prop := ∀ r, c.recordAt slot = some r → r.resultOwed = false

section Records
variable {q : Record → Prop}

theorem all_updRecord (h : ∀ r, c.recordAt slot = some r → q r) (s : Nat) {f : Record → Record} (keeps : ∀ r, (f r).slot = r.slot)
    (holds : ∀ r, slot = s → q r → q (f r)) : ∀ r, (c.updRecord s f).recordAt slot = some r → q r := by
  intro x there
  by_cases same : slot = s
  · rw [← same, recordAt_updRecord c slot f keeps] at there
    obtain ⟨r, here, rfl⟩ := Option.map_eq_some_iff.mp there
    exact holds r same (h r here)
  · rw [recordAt_updRecord_other c same keeps] at there
    exact h x there

/-- No step of the arbitration but the placing of a record's own frames changes what is asked of a record. -/
theorem Micro.all (step : Micro c d) (h : ∀ r, c.recordAt slot = some r → q r)
    (order : ∀ r o rest, r.owedOrders = o :: rest → c.recordAt slot = some r → q { r with owedOrders := rest })
    (result : ∀ r, q r → q { r with resultOwed := false }) : ∀ r, d.recordAt slot = some r → q r := by
  cases step with
  | places places =>
    intro r there
    rw [places.only.recordAt] at there
    exact h r there
  | command n k owed room => exact h
  | order s r o rest here owed room =>
    intro x there
    have there : (c.updRecord s fun r => { r with owedOrders := rest }).recordAt slot = some x := there
    by_cases same : slot = s
    · rw [← same] at there here
      rw [recordAt_updOrders, here] at there
      rw [← Option.some.inj there]
      exact order r o rest owed here
    · exact h x ((recordAt_updRecord_other c (f := fun r => { r with owedOrders := rest }) same fun _ => rfl).symm.trans there)
  | result s r l here =>
    exact all_updRecord (c := c.enqueue (.testResult r.serial l) (.record s)) h s (fun _ => rfl) fun r _ => result r
  | drop s r here pending =>
    intro x there
    by_cases same : slot = s
    · rw [same, dropRecord_gone] at there
      cases there
    · rw [dropRecord_other c same] at there
      exact h x there
  | withdraw s gone => exact h
  | drained stopping empty => exact h

end Records

theorem isOrderOf_iff (e : QueueEntry) : QueueEntry.isOrderOf slot e = true ↔ e.owner = .record slot ∧ e.body.isOrder = true := by
  rw [QueueEntry.isOrderOf, Bool.and_eq_true, beq_iff_eq]

theorem isOrderOf_false {e : QueueEntry} (other : e.owner = .record slot → e.body.isOrder = false) : QueueEntry.isOrderOf slot e = false := by
  refine Bool.eq_false_iff.mpr fun asked => ?_
  obtain ⟨owner, order⟩ := (isOrderOf_iff e).mp asked
  rw [other owner] at order
  cases order

theorem owesNone_shuts (slot : Nat) : Shuts (QueueEntry.isOrderOf slot) (OwesNone slot) where
  own e unbound := isOrderOf_false fun owner => by rw [owner] at unbound; cases unbound
  erase c q h := h
  step {c d} step h := by
    refine ⟨step.all h (fun r o rest owed here => ?_) fun _ => id,
      step.count_le (fun e unbound => isOrderOf_false fun owner => by rw [owner] at unbound; cases unbound) ?_ ?_ ?_ ?_⟩
    · rw [h r here] at owed
      cases owed
    · intro s e asked
      unfold QueueEntry.disownResult at asked
      split at asked
      · cases ((isOrderOf_iff _).mp asked).1
      · exact asked
    · exact fun n k e _ owner _ => isOrderOf_false fun same => by rw [owner] at same; cases same
    · intro s r o rest e here owed owner body
      refine isOrderOf_false fun same => ?_
      rw [owner] at same
      cases same
      rw [h r here] at owed
      cases owed
    · exact fun s x l e owner body => isOrderOf_false fun _ => by rw [body]; rfl

theorem runs_owesNoResult (run : Runs c d) (h : OwesNoResult slot c) : OwesNoResult slot d :=
  run.keep (p := OwesNoResult slot) (fun _ _ step h => step.all h (fun r _ _ _ here => h r here) fun _ _ => rfl) h

/-- The record in a slot before its queued orders are withdrawn. -/
def Controller.ordersCleared (c : Controller) (slot : Nat) : Controller :=
  (c.updRecord slot fun r => { r with owedOrders := [] }).setOutstanding (c.ring.outstanding.map (OutEntry.cancel slot))

theorem cancelOrders_eq (c : Controller) (slot : Nat) : c.cancelOrders slot = (c.ordersCleared slot).withdraw (QueueEntry.isOrderOf slot) := rfl

/-- A record whose orders are cancelled neither owes nor has queued one (R84). -/
theorem cancelOrders_rid (c : Controller) (slot : Nat) : Rid (QueueEntry.isOrderOf slot) (OwesNone slot) (c.cancelOrders slot) := by
  rw [cancelOrders_eq]
  refine withdraw_rid (owesNone_shuts slot) fun x there => ?_
  have there : (c.updRecord slot fun r => { r with owedOrders := [] }).recordAt slot = some x := there
  rw [recordAt_updRecord c slot (fun r => { r with owedOrders := [] }) fun _ => rfl] at there
  obtain ⟨y, -, rfl⟩ := Option.map_eq_some_iff.mp there
  rfl

theorem cancelOrders_owesNoResult (h : OwesNoResult slot c) (s : Nat) : OwesNoResult slot (c.cancelOrders s) := by
  rw [cancelOrders_eq]
  refine withdrawLoop_keep (p := OwesNoResult slot) (fun _ _ h => h) (fun c => runs_owesNoResult (judge_places true c).runs)
    (fun c => runs_owesNoResult (arbitrate_runs c)) _ _ _ ?_
  exact all_updRecord (q := fun r => r.resultOwed = false) h s (fun _ => rfl) fun _ _ => id

/-! ### Entry to MANUAL_HELD (R43) -/

section Hold
variable (distinct : c.SlotsDistinct) (here : c.recordAt slot = some r) (free : r.releasePending = false)
include distinct here free

theorem cancelOrders_record : ∃ x, (c.cancelOrders slot).recordAt slot = some x ∧ x.bare = r.bare ∧ x.owedOrders = [] := by
  obtain ⟨x, there, same⟩ := (cancelOrders_serves c slot).recordAt distinct here free
  exact ⟨x, there, same, (cancelOrders_rid c slot).1 x there⟩

theorem holdRecord_holds (other : r.state ≠ .manualHeld) (cause : HeldCause) :
    ∃ x, (c.holdRecord slot cause).recordAt slot = some x ∧ x.bare = { r with state := .manualHeld, heldCause := some cause }.bare ∧
      x.owedOrders = [] ∧ ∀ e ∈ (c.holdRecord slot cause).ring.queue, e.owner = .record slot → e.body.isOrder = false := by
  have made : c.holdRecord slot cause =
      (c.updRecord slot fun r => { r with state := .manualHeld, heldCause := some cause }).cancelOrders slot := by
    rw [Controller.holdRecord, here]
    exact if_neg fun held => held.elim (fun pending => by rw [free] at pending; cases pending) other
  have there : (c.updRecord slot fun r => { r with state := .manualHeld, heldCause := some cause }).recordAt slot =
      some { r with state := .manualHeld, heldCause := some cause } := by
    rw [recordAt_updRecord c slot (fun r => { r with state := .manualHeld, heldCause := some cause }) fun _ => rfl, here]
    rfl
  have held_distinct : (c.updRecord slot fun r => { r with state := .manualHeld, heldCause := some cause }).SlotsDistinct := by
    rw [Controller.SlotsDistinct, map_updRecord c slot (fun r => { r with state := .manualHeld, heldCause := some cause }) Record.slot fun _ => rfl]
    exact distinct
  obtain ⟨x, found, same, none⟩ := cancelOrders_record held_distinct there free
  rw [made]
  refine ⟨x, found, same, none, fun e member owner => Bool.eq_false_iff.mpr fun order => ?_⟩
  have asked := (isOrderOf_iff e).mpr ⟨owner, order⟩
  rw [(cancelOrders_rid _ slot).none member] at asked
  cases asked

end Hold

end Sys2Proof.Machine
end

section
/-! SUPPORT. The reports of the stamp and scrap cells (O33, R161 to R164). -/
namespace Sys2Proof.Machine

variable {c d : Controller} {slot : Nat} {r : Record} {serial : Serial}

theorem holdRecord_settled (c : Controller) (slot : Nat) (cause : HeldCause) (sound : c.RegisterSound) :
    (c.holdRecord slot cause).RegisterSound := (holdRecord_settles c slot cause).changes.registerSound sound

/-- A record held and reported is found by its serial. -/
theorem held_found (sound : c.RegisterSound) (here : c.recordAt slot = some r) (free : r.releasePending = false)
    (other : r.state ≠ .manualHeld) (cause : HeldCause) (cls : NoticeClass) (subject k : Nat) :
    ∃ x, ((c.holdRecord slot cause).raise cls subject k).recordOf r.serial = some x ∧
      x.bare = { r with state := .manualHeld, heldCause := some cause }.bare := by
  obtain ⟨x, there, same, -⟩ := holdRecord_holds sound.2.2.1 here free other cause
  have found := recordOf_of_recordAt (holdRecord_settled c slot cause sound) there
  rw [(sameIdentity_of_bare same.symm).2.1] at found
  exact ⟨x, (recordOf_congr (raise_onlyPlaces _ _ _ _).records _).trans found, same⟩

/-! ### The stamp cell (R161, R162) -/

section Stamp
variable {outcome struck : Nat} (few : struck ≤ 12) (awaits : c.awaiting serial .stamping = .ok r)
include few awaits

theorem takeStamp_done (done : outcome = 0 ∧ struck = (r.marks c.line.items.plantCode).length) : c.takeStamp serial outcome struck =
    ((c.updRecord r.slot fun r => { r with state := .leaving }).cancelOrders r.slot).makeOrders r.slot
      [.gate (if r.verdict = some .pass then .fill else .returnLane)] := by
  rw [Controller.takeStamp, if_neg (by omega), awaits]
  exact if_pos done

theorem takeStamp_stops (known : outcome ≤ 1) (stopped : ¬(outcome = 0 ∧ struck = (r.marks c.line.items.plantCode).length)) : c.takeStamp serial outcome struck =
    ((c.updRecord r.slot fun x => { x with stampProgress := some (struck, (r.marks c.line.items.plantCode).length) }).holdRecord r.slot
      .stampStopped).raise .manualDivert serial 3 := by
  rw [Controller.takeStamp, if_neg (by omega), awaits]
  exact if_neg stopped

end Stamp

/-! ### The scrap cell (R164) -/

theorem takeScrap_done (awaits : c.awaiting serial .scrapping = .ok r) : c.takeScrap serial 0 = (c.cancelOrders r.slot).askRelease r.slot := by
  rw [Controller.takeScrap, if_neg (by decide), awaits]
  rfl

theorem takeScrap_refused (awaits : c.awaiting serial .scrapping = .ok r) :
    c.takeScrap serial 1 = (c.holdRecord r.slot .scrapRefused).raise .manualDivert serial 4 := by
  rw [Controller.takeScrap, if_neg (by decide), awaits]
  rfl

section Release
variable (sound : c.RegisterSound) (found : c.recordOf serial = some r) (free : r.releasePending = false) (unowed : r.resultOwed = false)
include sound found free unowed

/-- A record that owes no TEST RESULT is removed after its orders are cancelled. -/
theorem cancelOrders_releases : (c.cancelOrders r.slot).askRelease r.slot = (c.cancelOrders r.slot).remove r.slot ∧
    ∃ x, (c.cancelOrders r.slot).recordOf serial = some x ∧ x.slot = r.slot := by
  obtain ⟨named, here⟩ : r.serial = serial ∧ c.recordAt r.slot = some r := ⟨((recordOf_iff sound).mp found).2, recordAt_of_recordOf sound found⟩
  obtain ⟨x, there, same, -⟩ := cancelOrders_record sound.2.2.1 here free
  have quiet : OwesNoResult r.slot c := fun y at_slot => by rw [Option.some.inj (at_slot.symm.trans here)]; exact unowed
  have slot_same := recordAt_slot there
  have left := recordOf_of_recordAt ((cancelOrders_serves c r.slot).registerSound sound) there
  rw [(sameIdentity_of_bare same.symm).2.1, named] at left
  refine ⟨?_, x, left, slot_same⟩
  have released := askRelease_removes (r := x) (by rw [slot_same]; exact there) (cancelOrders_owesNoResult quiet r.slot x there)
  rwa [slot_same] at released

theorem scrapped_gone : ((c.cancelOrders r.slot).askRelease r.slot).recordOf serial = none := by
  obtain ⟨removes, x, left, same⟩ := cancelOrders_releases sound found free unowed
  have left_sound := (cancelOrders_serves c r.slot).registerSound sound
  rw [removes]
  generalize c.cancelOrders r.slot = d at left left_sound
  rw [← same]
  exact removal_gone arbitrate_serves left_sound left

theorem scrapped_drains (stopping : c.line.state = .stopping) (only : c.records = [r]) :
    ((c.cancelOrders r.slot).askRelease r.slot).line = { c.line with state := .stopped } ∧
      ((c.cancelOrders r.slot).askRelease r.slot).Reported .lineStopped 0 0 := by
  obtain ⟨removes, -⟩ := cancelOrders_releases sound found free unowed
  have serves := cancelOrders_serves c r.slot
  have line := serves.line_of_kept sound.2.2.1 (recordAt_of_recordOf sound found) free
  have slots : ∀ x ∈ (c.cancelOrders r.slot).records, x.slot = r.slot := fun x member => by
    obtain ⟨y, here, same⟩ := serves.from_record member
    rw [only, List.mem_singleton] at here
    rw [(sameIdentity_of_bare same).1, here]
  rw [removes]
  obtain ⟨-, stopped, reported⟩ := removal_drains (arb := Controller.arbitrate) (fun _ x => arbitrateDepth_emptyOn (x.records.length + 1) x)
    (by rw [line]; exact stopping) slots
  rw [line] at stopped
  exact ⟨stopped, reported⟩

theorem scrapped_line (stays : c.line.state ≠ .stopping ∨ ∃ x ∈ c.records, x.slot ≠ r.slot ∧ x.releasePending = false) :
    ((c.cancelOrders r.slot).askRelease r.slot).line = c.line := by
  obtain ⟨removes, -⟩ := cancelOrders_releases sound found free unowed
  have serves := cancelOrders_serves c r.slot
  have line := serves.line_of_kept sound.2.2.1 (recordAt_of_recordOf sound found) free
  rw [removes]
  refine (removal_line (c := c.cancelOrders r.slot) arbitrate_serves (serves.slotsDistinct sound.2.2.1) ?_).trans line
  rw [line]
  refine stays.imp id fun ⟨x, member, other, unpending⟩ => ?_
  obtain ⟨y, there, same⟩ := serves.recordAt sound.2.2.1 (recordAt_of_mem sound.2.2.1 member) unpending
  have fields := eq_of_bare same.symm
  refine ⟨y, recordAt_mem there, by rw [recordAt_slot there]; exact other, ?_⟩
  rw [fields]
  exact unpending

end Release

/-- Settles O33: the outcome decides between the next order and a hold, or between the release and a hold. -/
theorem stampAndScrapReports : Obligations.StampAndScrapReports := by
  refine ⟨fun s h p serial outcome struck r hears role read known few sound found state free => ?_,
    fun s h p serial outcome r hears role read sound found state free => ⟨fun done none => ?_, fun refused => ?_⟩⟩
  · intro count
    have run := exec_stampReport hears role
    rw [read, Option.elim_some] at run
    have line : (heard s.part h 7 p).line = s.part.line := rfl
    have c_sound : (heard s.part h 7 p).RegisterSound := sound
    have c_found : (heard s.part h 7 p).recordOf serial = some r := found
    generalize heard s.part h 7 p = c at run line c_sound c_found
    have awaits := awaiting_some c_found state free
    have named := ((recordOf_iff c_sound).mp c_found).2
    have here := recordAt_of_recordOf c_sound c_found
    have marks : (r.marks c.line.items.plantCode).length = count := by rw [line]
    by_cases done : outcome = 0 ∧ struck = count
    · have x_sound := registerSound_updRecord c_sound r.slot (f := fun r => { r with state := .leaving }) fun _ => ⟨rfl, rfl⟩
      have x_here : (c.updRecord r.slot fun r => { r with state := .leaving }).recordAt r.slot = some { r with state := .leaving } := by
        rw [recordAt_updRecord c r.slot (fun r => { r with state := .leaving }) fun _ => rfl, here]
        rfl
      rw [takeStamp_done few awaits (by rw [marks]; exact done)] at run
      obtain ⟨x, there, same, -⟩ := cancelOrders_record x_sound.2.2.1 x_here free
      have x_free : x.releasePending = false := by rw [eq_of_bare same.symm]; exact free
      have gives := makeOrders_gives (l := [.gate (if r.verdict = some .pass then .fill else .returnLane)])
        ((cancelOrders_serves _ r.slot).registerSound x_sound) there x_free
      have kept : r.SameIdentity x := sameIdentity_of_bare (r := { r with state := .leaving }) same.symm
      obtain ⟨y, found, -, ⟨-, -, -, y_state⟩, ordered⟩ := gives.found kept named
      refine ⟨_, y, run, found, fun _ _ => ⟨?_, ordered _ (List.mem_singleton_self _)⟩, fun stopped => ?_⟩
      · rw [y_state, eq_of_bare same.symm]
      · exact absurd done fun ⟨zero, all⟩ => stopped.elim (by omega) fun other => other all
    · rw [takeStamp_stops few awaits known (by rw [marks]; exact done)] at run
      have struck_eq : (struck, (r.marks c.line.items.plantCode).length) = (struck, count) := by rw [marks]
      rw [struck_eq] at run
      have x_sound := registerSound_updRecord c_sound r.slot (f := fun x => { x with stampProgress := some (struck, count) }) fun _ => ⟨rfl, rfl⟩
      have x_here : (c.updRecord r.slot fun x => { x with stampProgress := some (struck, count) }).recordAt r.slot =
          some { r with stampProgress := some (struck, count) } := by
        rw [recordAt_updRecord c r.slot (fun x => { x with stampProgress := some (struck, count) }) fun _ => rfl, here]
        rfl
      obtain ⟨x, x_found, same⟩ := held_found x_sound x_here free (by rw [state]; nofun) .stampStopped .manualDivert serial 3
      have x_found : _ = some x := x_found
      rw [named] at x_found
      refine ⟨_, x, run, x_found, fun zero all => absurd ⟨zero, all⟩ done, fun _ => ?_⟩
      rw [eq_of_bare same.symm]
      exact ⟨rfl, rfl, rfl, raise_reported _ _ _ _⟩
  · have run := exec_scrapReport hears role
    rw [read, Option.elim_some, done] at run
    have c_found : (heard s.part h 8 p).recordOf serial = some r := found
    rw [takeScrap_done (awaiting_some c_found state free)] at run
    exact ⟨_, run, scrapped_gone (c := heard s.part h 8 p) sound c_found free none,
      scrapped_drains (c := heard s.part h 8 p) sound c_found free none, scrapped_line (c := heard s.part h 8 p) sound c_found free none⟩
  · have run := exec_scrapReport hears role
    rw [read, Option.elim_some, refused] at run
    have c_found : (heard s.part h 8 p).recordOf serial = some r := found
    rw [takeScrap_refused (awaiting_some c_found state free)] at run
    have here := recordAt_of_recordOf (c := heard s.part h 8 p) sound c_found
    obtain ⟨x, x_found, same⟩ := held_found (c := heard s.part h 8 p) sound here free (by rw [state]; nofun) .scrapRefused .manualDivert serial 4
    rw [((recordOf_iff (c := heard s.part h 8 p) sound).mp c_found).2] at x_found
    refine ⟨_, x, run, x_found, ?_⟩
    rw [eq_of_bare same.symm]
    exact ⟨rfl, rfl, raise_reported _ _ _ _⟩

end Sys2Proof.Machine
end

section
/-! SUPPORT. The jacket passes (R80 to R83): what they leave of a held record, of the reports and of the jackets. -/
namespace Sys2Proof.Machine

variable {c d e : Controller} {slot : Nat} {r x y : Record} {n m : JacketNo}

/-! ### Frames placed behind (R7) -/

/-- Frames are only placed, and no notice but INFEED_HELD is touched. -/
structure Adds (c d : Controller) : Prop where
  queue : c.ring.queue <+: d.ring.queue
  notices : HeldAlone c d

theorem Adds.of_same (queue : d.ring.queue = c.ring.queue) (notices : d.notices = c.notices) : Adds c d :=
  ⟨by rw [queue], heldAlone_of_notices notices⟩

theorem Adds.refl : Adds c c := .of_same rfl rfl

theorem Adds.trans (h : Adds c d) (k : Adds d e) : Adds c e := ⟨h.queue.trans k.queue, h.notices.trans k.notices⟩

theorem judge_adds (freed : Bool) (c : Controller) : Adds c (c.judge freed) := ⟨(judge_onlyPlaces freed c).queue, judge_heldAlone freed c⟩

theorem enqueue_adds (c : Controller) (b : Body) (o : Owner) : Adds c (c.enqueue b o) :=
  ⟨List.prefix_append _ _, heldAlone_of_notices rfl⟩

theorem updRecord_adds (c : Controller) (slot : Nat) (f : Record → Record) : Adds c (c.updRecord slot f) := .of_same rfl rfl

theorem offerOrders_adds (slot : Nat) (serial : Serial) (l : List Order) (c : Controller) : Adds c (c.offerOrders slot serial l) := by
  induction l generalizing c with
  | nil => exact .refl
  | cons o rest ih =>
    unfold Controller.offerOrders
    split
    · exact (((updRecord_adds c slot _).trans (enqueue_adds _ _ _)).trans (judge_adds false _)).trans (ih _)
    · exact .refl

theorem putResult_adds (c : Controller) (slot : Nat) (serial : Serial) (l : LastResult) : Adds c (c.putResult slot serial l) :=
  ((enqueue_adds c _ _).trans (updRecord_adds _ slot _)).trans (judge_adds false _)

theorem offerRecord_adds (free : ∀ r, c.recordAt slot = some r → r.releasePending = false) : Adds c (c.offerRecord slot) := by
  unfold Controller.offerRecord Controller.offerRecordWith
  split
  · exact .refl
  · next r here =>
    split
    · split
      · exact .refl
      · split
        · dsimp only
          rw [if_neg (ne_true_of_eq_false (free r here))]
          exact (putResult_adds _ _ _ _).trans (offerOrders_adds _ _ _ _)
        · exact .refl
    · exact offerOrders_adds _ _ _ _

theorem makeOrders_adds (free : ∀ r, c.recordAt slot = some r → r.releasePending = false) (l : List Order) : Adds c (c.makeOrders slot l) :=
  (updRecord_adds c slot _).trans
    (offerRecord_adds (notPending_updRecord (fun r => { r with owedOrders := r.owedOrders ++ l }) (fun _ => ⟨rfl, rfl⟩) free))

section Reports
variable {cls k : NoticeClass} {subject cause : Nat}

theorem Adds.reported (h : Adds c d) (other : cls ≠ .infeedHeld) (made : c.Reported cls subject cause) : d.Reported cls subject cause :=
  h.notices.reportStands h.queue other made

/-- A raise of another class leaves a report standing (R178). -/
theorem raise_reportStands (other : cls ≠ .infeedHeld) (apart : cls ≠ k) (made : c.Reported cls subject cause) (x z : Nat) :
    (c.raise k x z).Reported cls subject cause := by
  refine offerNotice_reported k other ?_
  rcases made with ⟨pending, same⟩ | queued
  · have kept : (c.markRaise k x z false).notice cls = c.notice cls := by
      rw [Controller.markRaise, notice_updNotice, if_neg apart]
    exact .inl (by rw [kept]; exact ⟨pending, same⟩)
  · exact .inr queued

end Reports

/-! ### The steps of a jacket pass (R80, R82) -/

/-- What an assignment and a failed chain check of a record that a jacket pass chooses keep, the jacket pass keeps. -/
theorem jacketPass_keep {P : Controller → Prop} (assigns : ∀ c x, c.recordFor n = some x → P c → P (c.assign x n))
    (faults : ∀ c x, c.recordFor n = some x → P c → P (c.programFault x)) (h : P c) : P (c.jacketPass n) := by
  have depth (k : Nat) (c : Controller) (h : P c) : P (Controller.jacketPassDepth k c n) := by
    induction k generalizing c with
    | zero => exact h
    | succ k ih =>
      unfold Controller.jacketPassDepth
      split
      · exact h
      · next x chosen =>
        split
        · exact assigns c x chosen h
        · exact ih _ (faults c x chosen h)
  unfold Controller.jacketPass
  split
  · exact depth _ c h
  · exact h

/-- The record a jacket pass chooses is WAITING, its release is not pending, and the jacket is eligible for it (R80). -/
theorem recordFor_waits (h : c.recordFor n = some x) : x ∈ c.records ∧ x.state = .waiting ∧ x.releasePending = false ∧
    c.eligible n x = true := by
  obtain ⟨member, waits⟩ := List.mem_filter.mp (List.mem_of_find?_eq_some h)
  rw [Record.isWaiting, Bool.and_eq_true, beq_iff_eq, Bool.not_eq_true'] at waits
  exact ⟨member, waits.1, waits.2, List.find?_some h⟩

/-- The state of an assignment before its gate order is made (R83). -/
def Controller.assigned (c : Controller) (r : Record) (n : JacketNo) : Controller :=
  (c.updRecord r.slot fun r => { r with state := .routed, jacket := some n }).updJacket n fun j =>
    { j with state := .awaiting, awaited := some r.serial, slot := some r.slot, programStart := r.spec.programStart }

theorem assign_eq (c : Controller) (r : Record) (n : JacketNo) : c.assign r n = (c.assigned r n).makeOrders r.slot [.gate (.jacket n)] := rfl

section Given
variable (distinct : c.SlotsDistinct) (member : x ∈ c.records) (free : x.releasePending = false)
include distinct member free

theorem assigned_free : ∀ r, (c.assigned x n).recordAt x.slot = some r → r.releasePending = false :=
  notPending_updRecord (c := c) (fun r => { r with state := .routed, jacket := some n }) (fun _ => ⟨rfl, rfl⟩) fun r here => by
    rw [recordAt_of_mem distinct member] at here
    rw [← Option.some.inj here]
    exact free

theorem assign_jackets : (c.assign x n).jackets = (c.assigned x n).jackets :=
  (makeOrders_onlySlot _ _ _ (assigned_free distinct member free)).jackets

theorem assign_jacket : (c.assign x n).jacket n = { c.jacket n with
    state := .awaiting, awaited := some x.serial, slot := some x.slot, programStart := x.spec.programStart } := by
  rw [jacket_congr (assign_jackets distinct member free), Controller.assigned, jacket_updJacket, if_pos rfl]
  rfl

theorem assign_other (other : m ≠ n) : (c.assign x n).jacket m = c.jacket m := by
  rw [jacket_congr (assign_jackets distinct member free), Controller.assigned, jacket_updJacket, if_neg other]
  rfl

theorem assign_stays (there : y ∈ c.records) (apart : y.slot ≠ x.slot) : y ∈ (c.assign x n).records :=
  (makeOrders_onlySlot _ _ _ (assigned_free distinct member free)).keeps (c := c.assigned x n)
    ((updRecord_onlySlot c x.slot (fun r => { r with state := .routed, jacket := some n }) fun _ => rfl).keeps there apart) apart

theorem assign_adds : Adds c (c.assign x n) :=
  have same : Adds c (c.assigned x n) := .of_same rfl rfl
  same.trans (makeOrders_adds (assigned_free distinct member free) _)

theorem recordAt_free : ∀ r, c.recordAt x.slot = some r → r.releasePending = false := fun r here => by
  rw [recordAt_of_mem distinct member] at here
  rw [← Option.some.inj here]
  exact free

theorem programFault_stays (there : y ∈ c.records) (apart : y.slot ≠ x.slot) : y ∈ (c.programFault x).records :=
  (programFault_onlySlot c x (recordAt_free distinct member free)).keeps there apart

theorem programFault_jacket (m : JacketNo) : (c.programFault x).jacket m = c.jacket m :=
  jacket_congr (programFault_onlySlot c x (recordAt_free distinct member free)).jackets m

theorem programFault_reports {cls : NoticeClass} {subject cause : Nat} (other : cls ≠ .infeedHeld) (apart : cls ≠ .programFault)
    (made : c.Reported cls subject cause) : (c.programFault x).Reported cls subject cause := by
  have diverted : Adds c (c.divert x.slot (.manual .program) .manual) :=
    (updRecord_adds c x.slot _).trans (makeOrders_adds (notPending_updRecord
      (fun r => { r with verdict := some (.manual .program), state := .leaving }) (fun _ => ⟨rfl, rfl⟩) (recordAt_free distinct member free)) _)
  exact raise_reportStands other apart (diverted.reported other made) _ _

end Given

/-- Another report stands through a jacket pass (R80, R82). -/
theorem jacketPass_reports {cls : NoticeClass} {subject cause : Nat} (sound : c.RegisterSound) (other : cls ≠ .infeedHeld)
    (apart : cls ≠ .programFault) (made : c.Reported cls subject cause) (n : JacketNo) : (c.jacketPass n).Reported cls subject cause :=
  (jacketPass_keep (P := fun x => x.RegisterSound ∧ x.Reported cls subject cause) (fun c x chosen h => by
    obtain ⟨member, -, free, -⟩ := recordFor_waits chosen
    exact ⟨(assign_settles c x n).changes.registerSound h.1, (assign_adds h.1.2.2.1 member free).reported other h.2⟩)
    (fun c x chosen h => by
      obtain ⟨member, -, free, -⟩ := recordFor_waits chosen
      exact ⟨(programFault_settles c x).changes.registerSound h.1, programFault_reports h.1.2.2.1 member free other apart h.2⟩)
    ⟨sound, made⟩).2

/-! ### A record at rest through a jacket pass -/

/-- The register is sound, this record stands in it, and it neither owes nor has queued an order. -/
structure AtRest (y : Record) (c : Controller) : Prop where
  sound : c.RegisterSound
  member : y ∈ c.records
  rid : Rid (QueueEntry.isOrderOf y.slot) (OwesNone y.slot) c

theorem AtRest.here (h : AtRest y c) : c.recordAt y.slot = some y := recordAt_of_mem h.sound.2.2.1 h.member

theorem Rid.updRecord {s : Nat} {f : Record → Record} (keeps : ∀ r, (f r).slot = r.slot) (other : slot ≠ s)
    (h : Rid (QueueEntry.isOrderOf slot) (OwesNone slot) c) : Rid (QueueEntry.isOrderOf slot) (OwesNone slot) (c.updRecord s f) :=
  ⟨fun r there => h.1 r ((recordAt_updRecord_other c other keeps).symm.trans there), h.2⟩

/-- The orders of another slot are no orders of this one. -/
theorem makeOrders_rid {s : Nat} (other : slot ≠ s) (h : Rid (QueueEntry.isOrderOf slot) (OwesNone slot) c) (l : List Order) :
    Rid (QueueEntry.isOrderOf slot) (OwesNone slot) (c.makeOrders s l) :=
  Rid.runs (owesNone_shuts slot) (offerRecord_runs _ s) (h.updRecord (f := fun r => { r with owedOrders := r.owedOrders ++ l }) (fun _ => rfl) other)

theorem AtRest.apart (h : AtRest y c) (still : y.state ≠ .waiting) (chosen : c.recordFor n = some x) : y.slot ≠ x.slot := fun same => by
  obtain ⟨member, waits, -⟩ := recordFor_waits chosen
  have here := h.here
  rw [same, recordAt_of_mem h.sound.2.2.1 member] at here
  rw [← Option.some.inj here] at still
  exact still waits

theorem AtRest.assign (h : AtRest y c) (still : y.state ≠ .waiting) (chosen : c.recordFor n = some x) : AtRest y (c.assign x n) := by
  obtain ⟨member, -, free, -⟩ := recordFor_waits chosen
  have apart := h.apart still chosen
  have assigned : Rid (QueueEntry.isOrderOf y.slot) (OwesNone y.slot) (c.assigned x n) :=
    h.rid.updRecord (f := fun r => { r with state := .routed, jacket := some n }) (fun _ => rfl) apart
  exact ⟨(assign_settles c x n).changes.registerSound h.sound, assign_stays h.sound.2.2.1 member free h.member apart, makeOrders_rid apart assigned _⟩

theorem AtRest.programFault (h : AtRest y c) (still : y.state ≠ .waiting) (chosen : c.recordFor n = some x) : AtRest y (c.programFault x) := by
  obtain ⟨member, -, free, -⟩ := recordFor_waits chosen
  have apart := h.apart still chosen
  have diverted : Rid (QueueEntry.isOrderOf y.slot) (OwesNone y.slot) (c.divert x.slot (.manual .program) .manual) :=
    makeOrders_rid apart (h.rid.updRecord (f := fun r => { r with verdict := some (.manual .program), state := .leaving }) (fun _ => rfl) apart) _
  exact ⟨(programFault_settles c x).changes.registerSound h.sound, programFault_stays h.sound.2.2.1 member free h.member apart,
    Rid.runs (owesNone_shuts _) (raise_places _ _ _ _).runs diverted⟩

theorem AtRest.jacketPass (h : AtRest y c) (still : y.state ≠ .waiting) (n : JacketNo) : AtRest y (c.jacketPass n) :=
  jacketPass_keep (fun _ _ chosen h => h.assign still chosen) (fun _ _ chosen h => h.programFault still chosen) h

/-- A record at rest is awaited by no jacket that a pass assigns. -/
theorem AtRest.notAwaited (h : AtRest y c) (still : y.state ≠ .waiting) (free : (c.jacket m).awaited ≠ some y.serial) (n : JacketNo) :
    ((c.jacketPass n).jacket m).awaited ≠ some y.serial :=
  (jacketPass_keep (P := fun x => AtRest y x ∧ (x.jacket m).awaited ≠ some y.serial) (fun c x chosen h => by
    obtain ⟨member, -, unpending, -⟩ := recordFor_waits chosen
    refine ⟨h.1.assign still chosen, ?_⟩
    by_cases same : m = n
    · rw [same, assign_jacket h.1.sound.2.2.1 member unpending]
      intro awaited
      have apart := h.1.apart still chosen
      rw [List.inj_on_of_nodup_map h.1.sound.2.1 member h.1.member (Option.some.inj awaited)] at apart
      exact apart rfl
    · rw [assign_other h.1.sound.2.2.1 member unpending same]
      exact h.2)
    (fun c x chosen h => by
      obtain ⟨member, -, unpending, -⟩ := recordFor_waits chosen
      exact ⟨h.1.programFault still chosen, by rw [programFault_jacket h.1.sound.2.2.1 member unpending]; exact h.2⟩) ⟨h, free⟩).2

end Sys2Proof.Machine
end

section
/-! SUPPORT. The outcomes of orders at their records (O11, R42, R57, R88 to R90, R165). -/
namespace Sys2Proof.Machine

variable {c d : Controller} {slot : Nat} {r x y : Record} {n m : JacketNo}

/-! ### The waiting queue (R76) -/

theorem isWaiting_bare (r : Record) : r.bare.isWaiting = r.isWaiting := rfl

theorem waitingQueue_bare (c : Controller) :
    c.waitingQueue.map Record.bare = ((c.records.map Record.bare).filter Record.stays).filter Record.isWaiting := by
  rw [List.filter_filter, List.filter_map]
  refine congrArg (List.map Record.bare) (List.filter_congr fun r _ => ?_)
  show r.isWaiting = (r.isWaiting && !r.releasePending)
  rw [Record.isWaiting, Bool.and_assoc, Bool.and_self]

/-- The waiting queue holds the same records, but for the frames they owe. -/
theorem Serves.waiting (h : Serves c d) (distinct : c.SlotsDistinct) : d.waitingQueue.map Record.bare = c.waitingQueue.map Record.bare := by
  rw [waitingQueue_bare, waitingQueue_bare, h.standing distinct]

theorem serials_of_bare {l k : List Record} (h : l.map Record.bare = k.map Record.bare) : l.map Record.serial = k.map Record.serial := by
  have := congrArg (List.map Record.serial) h
  rwa [List.map_map, List.map_map] at this

theorem empty_of_serials {l k : List Record} (h : l.map Record.serial = k.map Record.serial) (empty : k = []) : l = [] := by
  rw [empty] at h
  exact List.map_eq_nil_iff.mp h

/-- A record that neither waits before nor after is not in the waiting queue. -/
theorem updRecord_waiting {f : Record → Record} (here : c.recordAt slot = some r) (distinct : c.SlotsDistinct) (before : r.isWaiting = false)
    (after : (f r).isWaiting = false) : (c.updRecord slot f).waitingQueue = c.waitingQueue := by
  unfold Controller.waitingQueue
  show (c.records.map fun x => if x.slot = slot then f x else x).filter _ = _
  rw [List.filter_map]
  have same : ∀ x ∈ c.records, x.slot = slot → x = r := fun x member at_slot => eq_of_recordAt distinct here member at_slot
  have tests : c.records.filter (Record.isWaiting ∘ fun x => if x.slot = slot then f x else x) = c.records.filter Record.isWaiting := by
    refine List.filter_congr fun x member => ?_
    show Record.isWaiting (if x.slot = slot then f x else x) = x.isWaiting
    split
    · next at_slot => rw [same x member at_slot, before, after]
    · rfl
  rw [tests]
  refine (List.map_congr_left fun x member => ?_).trans (List.map_id _)
  obtain ⟨there, waits⟩ := List.mem_filter.mp member
  by_cases at_slot : x.slot = slot
  · rw [same x there at_slot, before] at waits
    cases waits
  · exact if_neg at_slot

/-! ### A jacket freed of a record that is held (R88, R89) -/

theorem freeAwaiting_eq (awaiting : (c.jacket n).state = .awaiting) : c.freeAwaiting n = c.updJacket n (Jacket.emptied .idle) := if_pos awaiting

/-- The jackets but for their owed commands, the waiting queue, the line, the tables and the verification are the same, and the register sound. -/
structure Quiets (c d : Controller) : Prop where
  jackets : SameButOwed c d
  waiting : d.waitingQueue.map Record.serial = c.waitingQueue.map Record.serial
  sound : d.RegisterSound
  line : d.line = c.line
  tables : d.tables = c.tables
  verification : d.verification = c.verification

theorem Quiets.trans {e : Controller} (h : Quiets c d) (k : Quiets d e) : Quiets c e where
  jackets := h.jackets.trans k.jackets
  waiting := k.waiting.trans h.waiting
  sound := k.sound
  line := k.line.trans h.line
  tables := k.tables.trans h.tables
  verification := k.verification.trans h.verification

theorem OnlyPlaces.quiets (h : OnlyPlaces c d) (sound : c.RegisterSound) : Quiets c d where
  jackets := .of_jackets h.jackets
  waiting := by rw [Controller.waitingQueue, h.records, Controller.waitingQueue]
  sound := registerSound_of_records h.records sound
  line := h.line
  tables := h.tables
  verification := h.verification

/-- A jacket that awaited a cylinder is freed of it (R88). -/
theorem Quiets.freed (h : Quiets c d) (awaiting : (c.jacket n).state = .awaiting) : c.Freed (d.freeAwaiting n) n := by
  have still : (d.jacket n).state = .awaiting := by rw [h.jackets n]; exact awaiting
  rw [freeAwaiting_eq still]
  refine ⟨?_, fun m apart => ?_, h.waiting, h.sound, h.line, h.tables, h.verification⟩
  · rw [jacket_updJacket, if_pos rfl, Jacket.emptied, h.jackets n]
  · rw [jacket_updJacket, if_neg apart]
    exact h.jackets m

theorem Freed.quiets {e : Controller} (h : c.Freed d n) (k : Quiets d e) : c.Freed e n := by
  obtain ⟨own, others, waiting, -, line, tables, verification⟩ := h
  refine ⟨?_, fun m apart => ?_, k.waiting.trans waiting, k.sound, k.line.trans line, k.tables.trans tables, k.verification.trans verification⟩
  · rw [k.jackets n, own]
  · rw [k.jackets m, others m apart]

section Held
variable (here : c.recordAt slot = some r) (free : r.releasePending = false) (other : r.state ≠ .manualHeld) (cause : HeldCause)
include here free other

theorem holdRecord_eq : c.holdRecord slot cause =
    (c.updRecord slot fun r => { r with state := .manualHeld, heldCause := some cause }).cancelOrders slot := by
  rw [Controller.holdRecord, here]
  exact if_neg fun held => held.elim (fun pending => by rw [free] at pending; cases pending) other

variable (sound : c.RegisterSound)
include sound

/-- What a hold of a record that does not wait leaves. -/
theorem holdRecord_quiets (rests : r.state ≠ .waiting) : Quiets c (c.holdRecord slot cause) := by
  have x_sound := registerSound_updRecord sound slot (f := fun r => { r with state := .manualHeld, heldCause := some cause }) fun _ => ⟨rfl, rfl⟩
  have there : (c.updRecord slot fun r => { r with state := .manualHeld, heldCause := some cause }).recordAt slot =
      some { r with state := .manualHeld, heldCause := some cause } := by
    rw [recordAt_updRecord c slot (fun r => { r with state := .manualHeld, heldCause := some cause }) fun _ => rfl, here]
    rfl
  have served := cancelOrders_serves (c.updRecord slot fun r => { r with state := .manualHeld, heldCause := some cause }) slot
  have waiting := serials_of_bare (served.waiting x_sound.2.2.1)
  have unmoved : r.isWaiting = false := by
    have : (r.state == .waiting) = false := beq_eq_false_iff_ne.mpr rests
    rw [Record.isWaiting, this, Bool.false_and]
  rw [holdRecord_eq here free other]
  refine ⟨served.jackets, waiting.trans ?_, served.registerSound x_sound, served.line_of_kept x_sound.2.2.1 there free, served.tables,
    served.verification⟩
  rw [updRecord_waiting here sound.2.2.1 unmoved rfl]

/-- A held record is at rest. -/
theorem holdRecord_atRest : ∃ y, AtRest y (c.holdRecord slot cause) ∧ y.bare = { r with state := .manualHeld, heldCause := some cause }.bare ∧
    y.slot = slot := by
  obtain ⟨y, there, same, -⟩ := holdRecord_holds sound.2.2.1 here free other cause
  have at_slot := recordAt_slot there
  refine ⟨y, ⟨(holdRecord_settles c slot cause).changes.registerSound sound, recordAt_mem there, ?_⟩, same, at_slot⟩
  rw [at_slot, holdRecord_eq here free other]
  exact cancelOrders_rid _ slot

end Held

theorem AtRest.places (h : AtRest y c) (k : PlacesUnbound c d) : AtRest y d :=
  ⟨registerSound_of_records k.only.records h.sound, by rw [k.only.records]; exact h.member, Rid.runs (owesNone_shuts _) k.runs h.rid⟩

theorem AtRest.freeAwaiting (h : AtRest y c) (n : JacketNo) : AtRest y (c.freeAwaiting n) := by
  unfold Controller.freeAwaiting
  split
  · exact ⟨h.sound, h.member, h.rid⟩
  · exact h

/-- A record at rest that is held for a cause (R43). -/
theorem AtRest.held {cause : HeldCause} (h : AtRest y c) (same : y.bare = { r with state := .manualHeld, heldCause := some cause }.bare) :
    c.Held r cause := by
  have kept : r.SameIdentity y := sameIdentity_of_bare (r := { r with state := .manualHeld, heldCause := some cause }) same.symm
  have fields := eq_of_bare same.symm
  refine ⟨y, by rw [← kept.1]; exact h.here, kept, by rw [fields], by rw [fields], h.rid.1 y h.here, fun e member owner => ?_⟩
  refine Bool.eq_false_iff.mpr fun order => ?_
  have asked := (isOrderOf_iff e).mpr ⟨owner.trans (congrArg Owner.record kept.1.symm), order⟩
  rw [h.rid.none member] at asked
  cases asked

/-! ### The orders a record awaits (R42) -/

theorem awaits_iff (r : Record) (x : Serial) (marks : List Byte) :
    (∀ n, r.awaitsOutcome (.gate x (.jacket n)) = true ↔ r.state = .routed ∧ r.jacket = some n) ∧
      (r.awaitsOutcome (.gate x .stamp) = true ↔ r.state = .stamping) ∧
      (r.awaitsOutcome (.stampOrder x marks) = true ↔ r.state = .stamping) ∧
      (r.awaitsOutcome (.gate x .scrap) = true ↔ r.state = .scrapping) ∧
      (r.awaitsOutcome (.scrapOrder x) = true ↔ r.state = .scrapping) ∧
      (∀ lane, lane = .fill ∨ lane = .returnLane ∨ lane = .manual ∨ lane = .rework ∨ lane = .reference →
        (r.awaitsOutcome (.gate x lane) = true ↔ r.state = .leaving)) := by
  refine ⟨fun n => ?_, beq_iff_eq, beq_iff_eq, beq_iff_eq, beq_iff_eq, fun lane out => ?_⟩
  · show (r.state == .routed && r.jacket == some n) = true ↔ _
    rw [Bool.and_eq_true, beq_iff_eq, beq_iff_eq]
  · rcases out with rfl | rfl | rfl | rfl | rfl <;> exact beq_iff_eq

/-- What follows when an order's outcome is this one. -/
def Record.Follows (r : Record) (body : Body) (lost delivered : Controller → Controller) : Prop :=
  ∀ c : Controller, c.orderOutcome r body false = lost c ∧ c.orderOutcome r body true = delivered c

/-- The orders of a record, by the state that awaits their outcome: a gate order to a jacket, one to an outgoing lane, and those of a cell. -/
theorem awaited_of {body : Body} (order : body.isOrder = true) (awaits : r.awaitsOutcome body = true) :
    (∃ n, r.state = .routed ∧ r.jacket = some n ∧ body.kind = (Body.gate r.serial (.jacket n)).kind ∧
      r.Follows body (fun c => c.jacketGateLost r n) id) ∨
    (r.state = .leaving ∧ r.Follows body (fun c => c.orderLost r body) fun c => c.askRelease r.slot) ∨
    ((r.state = .stamping ∨ r.state = .scrapping) ∧ r.Follows body (fun c => c.orderLost r body) id) := by
  cases body with
  | gate x lane =>
    obtain ⟨jacket, stamp, -, scrap, -, lanes⟩ := awaits_iff r x []
    cases lane with
    | jacket n =>
      obtain ⟨state, served⟩ := (jacket n).mp awaits
      exact .inl ⟨n, state, served, rfl, fun _ => ⟨rfl, rfl⟩⟩
    | stamp => exact .inr (.inr ⟨.inl (stamp.mp awaits), fun _ => ⟨rfl, rfl⟩⟩)
    | scrap => exact .inr (.inr ⟨.inr (scrap.mp awaits), fun _ => ⟨rfl, rfl⟩⟩)
    | _ => exact .inr (.inl ⟨(lanes _ (by decide)).mp awaits, fun _ => ⟨rfl, rfl⟩⟩)
  | stampOrder x marks => exact .inr (.inr ⟨.inl ((awaits_iff r x marks).2.2.1.mp awaits), fun _ => ⟨rfl, rfl⟩⟩)
  | scrapOrder x => exact .inr (.inr ⟨.inr ((awaits_iff r x []).2.2.2.2.1.mp awaits), fun _ => ⟨rfl, rfl⟩⟩)
  | _ => cases order

section Order
variable {e : OutEntry} (here : c.recordAt r.slot = some r) (order : e.body.isOrder = true) (taken : Bool)
include here order

theorem recordOutcome_order : c.recordOutcome r.slot e taken =
    if e.stands = true ∧ r.releasePending = false ∧ r.awaitsOutcome e.body = true then c.orderOutcome r e.body taken else c := by
  rw [Controller.recordOutcome, here]
  dsimp only
  split
  · next body =>
    rw [body] at order
    cases order
  · rfl

end Order

/-! ### An order that is lost (R89, R90, R165) -/

/-- The part with the record held and the jacket it was gated to freed, before the jacket's pass (R89). -/
def Controller.gateLost (c : Controller) (r : Record) (n : JacketNo) : Controller :=
  ((c.holdRecord r.slot .undelivered).freeAwaiting n).raise .undelivered r.serial (Body.gate r.serial (.jacket n)).kind

theorem gateLost_reported (c : Controller) (r : Record) (n : JacketNo) :
    (c.gateLost r n).Reported .undelivered r.serial (Body.gate r.serial (.jacket n)).kind := raise_reported _ _ _ _

section Lost
variable (sound : c.RegisterSound) (here : c.recordAt r.slot = some r) (free : r.releasePending = false)
  (rests : r.state ≠ .waiting ∧ r.state ≠ .manualHeld)
include sound here free rests

/-- The record of a lost order is held, whatever jacket is then freed, and the loss reported. -/
theorem orderLost_holds (body : Body) : ∃ y, AtRest y (c.orderLost r body) ∧
    y.bare = { r with state := .manualHeld, heldCause := some .undelivered }.bare ∧ y.slot = r.slot := by
  obtain ⟨y, rest, same, at_slot⟩ := holdRecord_atRest here free rests.2 .undelivered sound
  exact ⟨y, rest.places (raise_places _ _ _ _), same, at_slot⟩

theorem gateLost_holds (n : JacketNo) : ∃ y, AtRest y (c.gateLost r n) ∧
    y.bare = { r with state := .manualHeld, heldCause := some .undelivered }.bare ∧ y.slot = r.slot := by
  obtain ⟨y, rest, same, at_slot⟩ := holdRecord_atRest here free rests.2 .undelivered sound
  exact ⟨y, (rest.freeAwaiting n).places (raise_places _ _ _ _), same, at_slot⟩

theorem gateLost_freed (awaiting : (c.jacket n).state = .awaiting) : c.Freed (c.gateLost r n) n := by
  have freed := (holdRecord_quiets here free rests.2 .undelivered sound rests.1).freed awaiting
  exact Freed.quiets freed ((raise_onlyPlaces _ _ _ _).quiets freed.2.2.2.1)

end Lost

/-- A freed jacket stays IDLE and empty when no record waits, or in a line that makes no assignment (R78). -/
theorem Freed.stays_idle (h : c.Freed d n) (quiet : c.waitingQueue = [] ∨ (c.line.state ≠ .running ∧ c.line.state ≠ .stopping)) :
    d.jacketPass n = d ∧ (d.jacket n).state = .idle ∧ (d.jacket n).awaited = none ∧ (d.jacket n).loaded = none ∧ (d.jacket n).slot = none := by
  obtain ⟨own, -, waiting, -, line, -, -⟩ := h
  refine ⟨?_, by rw [own], by rw [own], by rw [own], by rw [own]⟩
  rcases quiet with empty | ⟨notRunning, notStopping⟩
  · exact jacketPass_of_no_waiting (empty_of_serials waiting empty) n
  · have still : d.lineMoving = false := by
      rw [Controller.lineMoving, line, Bool.or_eq_false_iff]
      exact ⟨beq_eq_false_iff_ne.mpr notRunning, beq_eq_false_iff_ne.mpr notStopping⟩
    exact (passes_held_over d still 0 n).2

/-- No record holds the slot of a record that is removed. -/
theorem remove_gone (c : Controller) (slot : Nat) : (c.remove slot).recordAt slot = none :=
  Runs.gone (removeWith_runs arbitrate_runs slot c) (dropRecord_gone c slot)

/-- The outstanding list is nothing that a freed jacket is compared in. -/
theorem Freed.of_outstanding {l : List OutEntry} (h : (c.setOutstanding l).Freed d n) : c.Freed d n := h

/-- What a lost order leaves of its record: held as UNDELIVERED (R43). -/
def Controller.HeldLost (c : Controller) (r : Record) : Prop :=
  ∃ r', c.recordAt r.slot = some r' ∧ r.SameIdentity r' ∧ r'.state = .manualHeld ∧ r'.heldCause = some .undelivered

theorem AtRest.heldLost (h : AtRest y c) (same : y.bare = { r with state := .manualHeld, heldCause := some .undelivered }.bare) :
    c.HeldLost r := by
  have kept : r.SameIdentity y := sameIdentity_of_bare (r := { r with state := .manualHeld, heldCause := some .undelivered }) same.symm
  refine ⟨y, by rw [← kept.1]; exact h.here, kept, ?_⟩
  rw [eq_of_bare same.symm]
  exact ⟨rfl, rfl⟩

/-- A lost gate order to a jacket: the record is held and the loss reported, and the jacket, if it awaited the cylinder, awaits it no longer (R89). -/
theorem gateLost_passes (sound : c.RegisterSound) (here : c.recordAt r.slot = some r) (free : r.releasePending = false)
    (rests : r.state ≠ .waiting ∧ r.state ≠ .manualHeld) (n : JacketNo) :
    ((c.gateLost r n).jacketPass n).HeldLost r ∧
      ((c.gateLost r n).jacketPass n).Reported .undelivered r.serial (Body.gate r.serial (.jacket n)).kind ∧
      ((c.jacket n).state = .awaiting → (((c.gateLost r n).jacketPass n).jacket n).awaited ≠ some r.serial ∧
        (c.waitingQueue = [] ∨ (c.line.state ≠ .running ∧ c.line.state ≠ .stopping) →
          (((c.gateLost r n).jacketPass n).jacket n).state = .idle ∧ (((c.gateLost r n).jacketPass n).jacket n).awaited = none ∧
          (((c.gateLost r n).jacketPass n).jacket n).loaded = none ∧ (((c.gateLost r n).jacketPass n).jacket n).slot = none)) := by
  obtain ⟨y, rest, same, -⟩ := gateLost_holds (n := n) sound here free rests
  have moved : y.state ≠ .waiting := by rw [eq_of_bare same.symm]; nofun
  have named : y.serial = r.serial := (sameIdentity_of_bare (r := { r with state := .manualHeld, heldCause := _ }) same.symm).2.1
  refine ⟨(rest.jacketPass moved n).heldLost same, jacketPass_reports rest.sound (by decide) (by decide) (gateLost_reported c r n) n,
    fun awaiting => ?_⟩
  have freed := gateLost_freed sound here free rests awaiting
  refine ⟨?_, fun quiet => ?_⟩
  · rw [← named]
    refine rest.notAwaited moved ?_ n
    rw [freed.1]
    nofun
  · obtain ⟨stays, idle⟩ := Freed.stays_idle freed quiet
    rw [stays]
    exact idle

/-- A delivered order to an outgoing lane releases its record (R58, R90). -/
theorem askRelease_releases (sound : c.RegisterSound) (here : c.recordAt r.slot = some r) (unowed : r.resultOwed = false) :
    (c.askRelease r.slot).recordAt r.slot = none ∧
      (c.line.state = .stopping → c.records = [r] →
        (c.askRelease r.slot).line = { c.line with state := .stopped } ∧ (c.askRelease r.slot).Reported .lineStopped 0 0) ∧
      (c.line.state ≠ .stopping ∨ (∃ x ∈ c.records, x.slot ≠ r.slot ∧ x.releasePending = false) → (c.askRelease r.slot).line = c.line) := by
  rw [askRelease_removes here unowed]
  refine ⟨remove_gone c r.slot, fun stopping only => ?_, fun stays => removal_line arbitrate_serves sound.2.2.1 stays⟩
  obtain ⟨-, line, reported⟩ := removal_drains (c := c) (arb := Controller.arbitrate) (slot := r.slot)
    (fun _ x => arbitrateDepth_emptyOn (x.records.length + 1) x) stopping fun x member => by
      rw [only, List.mem_singleton] at member
      rw [member]
  exact ⟨line, reported⟩

/-- Settles O11: an order that is lost holds its record and frees its jacket, and one delivered to an outgoing lane releases it. -/
theorem outcomesOfOrders : Obligations.OutcomesOfOrders := by
  intro destination kind sequence payload trailer s e rest r inService short oldest number sound here owner order i removed delivered held passed
  have removed_sound : removed.RegisterSound := sound
  have removed_here : removed.recordAt r.slot = some r := here
  have handed (taken : Bool) : removed.outcome e taken =
      if e.stands = true ∧ r.releasePending = false ∧ r.awaitsOutcome e.body = true then removed.orderOutcome r e.body taken else removed := by
    rw [Controller.outcome, owner]
    exact recordOutcome_order removed_here order taken
  have lost (undelivered : ¬delivered) : exec i s = .next (s.withPart (removed.outcome e false)) :=
    exec_oldestLost inService short oldest number undelivered
  have taken (yes : delivered) : exec i s = .next (s.withPart (removed.outcome e true)) := exec_oldestDelivered inService short oldest number yes
  refine ⟨awaits_iff r, fun unheeded => ?_, fun stands free awaits => ?_⟩
  · have idle (taken : Bool) : removed.outcome e taken = removed := by
      rw [handed]
      refine if_neg fun ⟨stands, free, awaits⟩ => ?_
      rcases unheeded with fell | pending | other
      · rw [fell] at stands
        cases stands
      · rw [pending] at free
        cases free
      · rw [other] at awaits
        cases awaits
    by_cases yes : delivered
    · rw [taken yes, idle]
    · rw [lost yes, idle]
  · have heeded : e.stands = true ∧ r.releasePending = false ∧ r.awaitsOutcome e.body = true := ⟨stands, free, awaits⟩
    rw [handed, if_pos heeded] at lost taken
    have cell (undelivered : ¬delivered) (follows : removed.orderOutcome r e.body false = removed.orderLost r e.body)
        (rests : r.state ≠ .waiting ∧ r.state ≠ .manualHeld) (unrouted : r.state ≠ .routed) : held ∧ passed := by
      obtain ⟨y, rest, same, -⟩ := orderLost_holds removed_sound removed_here free rests e.body
      obtain ⟨x, there, identity, state, cause⟩ := rest.heldLost same
      have run := lost undelivered
      rw [follows] at run
      exact ⟨⟨_, x, run, there, identity, state, cause, raise_reported _ _ _ _, fun _ routed => absurd routed unrouted⟩,
        fun _ routed => absurd routed unrouted⟩
    rcases awaited_of order awaits with ⟨n, state, jacket, kind, follows⟩ | ⟨state, follows⟩ | ⟨state, follows⟩
    · have rests : r.state ≠ .waiting ∧ r.state ≠ .manualHeld := by rw [state]; exact ⟨nofun, nofun⟩
      refine ⟨fun undelivered => ?_, fun yes _ => by rw [taken yes, (follows removed).2]; rfl, fun _ leaves => by rw [state] at leaves; cases leaves⟩
      obtain ⟨⟨x, there, identity, held, cause⟩, reported, frees⟩ := gateLost_passes removed_sound removed_here free rests n
      have run : exec i s = .next (s.withPart ((removed.gateLost r n).jacketPass n)) := by
        rw [lost undelivered, (follows removed).1]
        rfl
      rw [← kind] at reported
      refine ⟨⟨_, x, run, there, identity, held, cause, reported, fun k _ served awaiting _ => ?_⟩, fun k _ served awaiting => ?_⟩
      · obtain rfl : n = k := Option.some.inj (jacket.symm.trans served)
        exact frees awaiting
      · obtain rfl : n = k := Option.some.inj (jacket.symm.trans served)
        obtain ⟨y, rest, same, -⟩ := gateLost_holds (n := n) removed_sound removed_here free rests
        have freed := Freed.of_outstanding (gateLost_freed removed_sound removed_here free rests awaiting)
        have reported := gateLost_reported removed r n
        have left := rest.held same
        rw [← kind] at reported
        exact ⟨_, freed, left, reported, run⟩
    · refine ⟨fun undelivered => ?_, fun _ stays => absurd state stays, fun yes _ => ?_⟩
      · exact cell undelivered (follows removed).1 (by rw [state]; exact ⟨nofun, nofun⟩) (by rw [state]; nofun)
      · have run : exec i s = .next (s.withPart (removed.askRelease r.slot)) := by rw [taken yes, (follows removed).2]
        refine ⟨fun unowed => ⟨_, run, askRelease_releases removed_sound removed_here unowed⟩, fun owed => ⟨_, run, ?_⟩⟩
        rw [askRelease_waits removed_here owed, recordAt_updRecord removed r.slot (fun r => { r with releasePending := true }) fun _ => rfl,
          removed_here]
        exact ⟨rfl, rfl⟩
    · have unrouted : r.state ≠ .routed := by rcases state with state | state <;> rw [state] <;> nofun
      have stays : r.state ≠ .leaving := by rcases state with state | state <;> rw [state] <;> nofun
      have rests : r.state ≠ .waiting ∧ r.state ≠ .manualHeld := by rcases state with state | state <;> rw [state] <;> exact ⟨nofun, nofun⟩
      exact ⟨fun undelivered => cell undelivered (follows removed).1 rests unrouted, fun yes _ => by rw [taken yes, (follows removed).2]; rfl,
        fun _ leaves => absurd leaves stays⟩

end Sys2Proof.Machine
end

section
/-! SUPPORT. The chain check, and the records and jackets that the passes choose (O20, R28 to R30, R77 to R83). -/
namespace Sys2Proof.Machine

variable {c d : Controller} {slot : Nat} {r x y : Record} {n m : JacketNo}

/-! ### The chain check (R29, R30) -/

section Chain
variable {t : Tables}

theorem blocks_at {p : Nat} (inside : p < 96) : t.blocks[p]? = some (t.blockAt p) := by
  rw [Tables.blockAt, Vector.getElem?_eq_getElem inside]
  rfl

/-- The walk from p ends clear k blocks further. -/
def EndsAfter (t : Tables) (n p k : Nat) : Prop :=
  k < n ∧ p + k < 96 ∧ (∀ i < k, (t.blockAt (p + i)).chain = true) ∧ (t.blockAt (p + k)).chain = false

theorem endsAfter_zero {n p : Nat} (inside : p < 96) (last : (t.blockAt p).chain = false) : EndsAfter t (n + 1) p 0 :=
  ⟨n.succ_pos, inside, nofun, last⟩

theorem endsAfter_succ {n p k : Nat} (goes : (t.blockAt p).chain = true) : EndsAfter t (n + 1) p (k + 1) ↔ EndsAfter t n (p + 1) k := by
  have shift (i : Nat) : p + 1 + i = p + (i + 1) := by omega
  refine ⟨fun ⟨small, inside, chained, last⟩ => ⟨by omega, by omega, fun i less => ?_, by rw [shift]; exact last⟩,
    fun ⟨small, inside, chained, last⟩ => ⟨by omega, by omega, fun i less => ?_, by rw [← shift]; exact last⟩⟩
  · rw [shift]
    exact chained (i + 1) (by omega)
  · cases i with
    | zero => exact goes
    | succ i =>
      rw [← shift]
      exact chained i (by omega)

theorem chainWalk_clear (n p : Nat) : (chainWalk t.blocks n p).2 = .clear ↔ ∃ k, EndsAfter t n p k := by
  induction n generalizing p with
  | zero => exact ⟨nofun, fun ⟨_, small, _⟩ => absurd small (Nat.not_lt_zero _)⟩
  | succ n ih =>
    rw [chainWalk]
    by_cases inside : p < 96
    · rw [blocks_at inside]
      dsimp only
      by_cases goes : (t.blockAt p).chain = true
      · rw [if_neg (ne_false_of_eq_true goes)]
        have some_later : (∃ k, EndsAfter t (n + 1) p k) ↔ ∃ k, EndsAfter t n (p + 1) k := by
          refine ⟨fun ⟨k, ends⟩ => ?_, fun ⟨k, ends⟩ => ⟨k + 1, (endsAfter_succ goes).mpr ends⟩⟩
          cases k with
          | zero => exact absurd (ends.2.2.2) (ne_false_of_eq_true goes)
          | succ k => exact ⟨k, (endsAfter_succ goes).mp ends⟩
        rw [some_later]
        by_cases past : 95 ≤ p
        · rw [if_pos past]
          refine ⟨nofun, fun ⟨k, _, inside, _⟩ => absurd inside (by omega)⟩
        · rw [if_neg past]
          exact ih (p + 1)
      · have last : (t.blockAt p).chain = false := Bool.eq_false_iff.mpr goes
        rw [if_pos last]
        exact ⟨fun _ => ⟨0, endsAfter_zero inside last⟩, fun _ => rfl⟩
    · rw [Vector.getElem?_eq_none (Nat.not_lt.mp inside)]
      exact ⟨nofun, fun ⟨k, _, small, _⟩ => absurd small (by omega)⟩

theorem chainWalk_blocks {n p k : Nat} (ends : EndsAfter t n p k) : (chainWalk t.blocks n p).1 = (List.range (k + 1)).map (p + ·) := by
  induction n generalizing p k with
  | zero => exact absurd ends.1 (Nat.not_lt_zero _)
  | succ n ih =>
    have ⟨_, inside, chained, last⟩ := ends
    rw [chainWalk, blocks_at (show p < 96 by omega)]
    dsimp only
    cases k with
    | zero =>
      rw [if_pos (show (t.blockAt p).chain = false from last)]
      rfl
    | succ k =>
      have goes : (t.blockAt p).chain = true := chained 0 (by omega)
      rw [if_neg (ne_false_of_eq_true goes), if_neg (by omega)]
      show p :: (chainWalk t.blocks n (p + 1)).1 = _
      rw [ih ((endsAfter_succ goes).mp ends), List.range_succ_eq_map (n := k + 1), List.map_cons, List.map_map]
      refine congrArg (List.cons p) (List.map_congr_left fun i _ => ?_)
      show p + 1 + i = p + (i + 1)
      omega

end Chain

/-- Exactly one of the numbers up to k passes a test. -/
theorem countP_range_one (q : Nat → Bool) (k : Nat) :
    (List.range (k + 1)).countP q = 1 ↔ ∃ i ≤ k, q i = true ∧ ∀ j ≤ k, q j = true → j = i := by
  have inside (i : Nat) : i ∈ (List.range (k + 1)).filter q ↔ i ≤ k ∧ q i = true := by
    rw [List.mem_filter, List.mem_range, Nat.lt_succ_iff]
  rw [List.countP_eq_length_filter]
  constructor
  · intro one
    obtain ⟨i, only⟩ := List.length_eq_one_iff.mp one
    have here := (inside i).mp (by rw [only]; exact List.mem_singleton_self i)
    refine ⟨i, here.1, here.2, fun j less passes => ?_⟩
    have member := (inside j).mpr ⟨less, passes⟩
    rw [only] at member
    exact List.mem_singleton.mp member
  · rintro ⟨i, less, passes, only⟩
    have few : ((List.range (k + 1)).filter q).length ≤ [i].length :=
      (List.subperm_of_subset (List.nodup_range.filter q) fun j member => by
        obtain ⟨small, holds⟩ := (inside j).mp member
        exact List.mem_singleton.mpr (only j small holds)).length_le
    exact Nat.le_antisymm few (List.length_pos_of_mem ((inside i).mpr ⟨less, passes⟩))

/-- The checks of a chain that ends clear (R30). -/
theorem chainOk_of_ends {t : Tables} {p k : Nat} (ends : EndsAfter t Config.maxChain p k) : t.chainOk p = true ↔
    (t.blockAt (p + 0)).kind = .zero ∧
      (∃ i ≤ k, ((t.blockAt (p + i)).kind = .hold ∧ (t.blockAt (p + i)).reading = true) ∧
        ∀ j ≤ k, (t.blockAt (p + j)).kind = .hold → (t.blockAt (p + j)).reading = true → j = i) ∧
      (t.blockAt (p + k)).kind = .vent ∧ ∀ i ≤ k, (t.blockAt (p + i)).fieldsOk = true := by
  have clear : (t.chainAt p).2 = .clear := (chainWalk_clear _ p).mpr ⟨k, ends⟩
  have blocks : (t.chainAt p).1.map t.blockAt = (List.range (k + 1)).map fun i => t.blockAt (p + i) := by
    rw [Tables.chainAt, chainWalk_blocks ends, List.map_map]
    rfl
  have first : (((List.range (k + 1)).map fun i => t.blockAt (p + i)).head?.map Block.kind == some .zero) = true ↔
      (t.blockAt (p + 0)).kind = .zero := by
    rw [List.range_succ_eq_map, List.map_cons, List.head?_cons, Option.map_some, beq_iff_eq, Option.some_inj]
  have final : (((List.range (k + 1)).map fun i => t.blockAt (p + i)).getLast?.map Block.kind == some .vent) = true ↔
      (t.blockAt (p + k)).kind = .vent := by
    rw [List.range_succ, List.map_append, List.map_cons, List.map_nil, List.getLast?_concat, Option.map_some, beq_iff_eq, Option.some_inj]
  have reads : (((List.range (k + 1)).map fun i => t.blockAt (p + i)).countP Block.isReadingHold == 1) = true ↔
      ∃ i ≤ k, ((t.blockAt (p + i)).kind = .hold ∧ (t.blockAt (p + i)).reading = true) ∧
        ∀ j ≤ k, (t.blockAt (p + j)).kind = .hold → (t.blockAt (p + j)).reading = true → j = i := by
    have reading (b : Block) : b.isReadingHold = true ↔ b.kind = .hold ∧ b.reading = true := by
      rw [Block.isReadingHold, Bool.and_eq_true, beq_iff_eq]
    rw [beq_iff_eq, List.countP_map, countP_range_one]
    simp only [Function.comp, reading, and_imp]
  have fields : ((List.range (k + 1)).map fun i => t.blockAt (p + i)).all Block.fieldsOk = true ↔
      ∀ i ≤ k, (t.blockAt (p + i)).fieldsOk = true := by
    simp only [List.all_map, List.all_eq_true, List.mem_range, Nat.lt_succ_iff, Function.comp]
  rw [Tables.chainOk, blocks, clear]
  simp only [Bool.and_eq_true, first, final, reads, fields, and_assoc, beq_self_eq_true, true_and]

theorem chainOk_iff (t : Tables) (p : Nat) : t.chainOk p = true ↔
    ∃ k, k < 12 ∧ p + k < 96 ∧ (∀ i < k, (t.blockAt (p + i)).chain = true) ∧ (t.blockAt (p + k)).chain = false ∧
      (t.blockAt (p + 0)).kind = .zero ∧
      (∃ i ≤ k, ((t.blockAt (p + i)).kind = .hold ∧ (t.blockAt (p + i)).reading = true) ∧
        ∀ j ≤ k, (t.blockAt (p + j)).kind = .hold → (t.blockAt (p + j)).reading = true → j = i) ∧
      (t.blockAt (p + k)).kind = .vent ∧ ∀ i ≤ k, (t.blockAt (p + i)).fieldsOk = true := by
  constructor
  · intro ok
    have clear : (t.chainAt p).2 = .clear := by
      simp only [Tables.chainOk, Bool.and_eq_true, beq_iff_eq] at ok
      exact ok.1.1.1.1
    obtain ⟨k, ends⟩ := (chainWalk_clear _ p).mp clear
    have ⟨small, inside, chained, last⟩ := ends
    exact ⟨k, small, inside, chained, last, (chainOk_of_ends ends).mp ok⟩
  · rintro ⟨k, small, inside, chained, last, rest⟩
    exact (chainOk_of_ends ⟨small, inside, chained, last⟩).mpr rest

/-! ### The choices of the passes (R77, R79, R80) -/

theorem eligible_iff (c : Controller) (n : JacketNo) (r : Record) : c.eligible n r = true ↔
    (c.jacket n).state = .idle ∧ c.jacketSize n = some r.spec.size ∧ (c.verif n).count < 3 ∧
      ((c.verif n).verified = true ∨ r.spec.reference ≠ none) ∧ r.countedInvalids < 2 := by
  simp only [Controller.eligible, Bool.and_eq_true, Bool.or_eq_true, beq_iff_eq, decide_eq_true_eq, and_assoc, TypeEntry.isReference,
    Option.isSome_iff_ne_none]

/-- The lowest jacket that passes a test. -/
theorem find_jacketNumbers (q : JacketNo → Bool) (n : JacketNo) :
    jacketNumbers.find? q = some n ↔ q n = true ∧ ∀ m : JacketNo, m.val < n.val → q m = false := by
  have at_index : ∀ i : Fin 8, jacketNumbers[i.val]? = some i := by decide
  have length : jacketNumbers.length = 8 := rfl
  rw [List.find?_eq_some_iff_getElem]
  constructor
  · rintro ⟨passes, i, inside, here, before⟩
    have same := at_index ⟨i, inside⟩
    rw [List.getElem?_eq_getElem inside, Option.some_inj] at same
    obtain rfl : ⟨i, inside⟩ = n := same.symm.trans here
    refine ⟨passes, fun m less => ?_⟩
    have earlier := at_index m
    rw [List.getElem?_eq_getElem (by omega), Option.some_inj] at earlier
    have := before m.val less
    rw [earlier] at this
    simpa using this
  · rintro ⟨passes, before⟩
    refine ⟨passes, n.val, n.isLt, ?_, fun j less => ?_⟩
    · have := at_index n
      rwa [List.getElem?_eq_getElem n.isLt, Option.some_inj] at this
    · have := at_index ⟨j, by omega⟩
      rw [List.getElem?_eq_getElem (by omega), Option.some_inj] at this
      rw [this, before ⟨j, _⟩ less]
      rfl

theorem find_jacketNumbers_none (q : JacketNo → Bool) : jacketNumbers.find? q = none ↔ ∀ m : JacketNo, q m = false := by
  have all : ∀ m : JacketNo, m ∈ jacketNumbers := by decide
  rw [List.find?_eq_none]
  exact ⟨fun none m => Bool.eq_false_iff.mpr (none m (all m)), fun none m _ => ne_true_of_eq_false (none m)⟩

/-- The jacket a record pass chooses: for an ordinary record the lowest eligible one, for a reference record the lowest unverified one, if any (R79). -/
theorem jacketFor_chosen (chosen : if r.spec.reference = none then c.eligible n r = true ∧ ∀ m : JacketNo, m.val < n.val → c.eligible m r = false
      else (c.eligible n r = true ∧ (c.verif n).verified = false ∧
          ∀ m : JacketNo, m.val < n.val → c.eligible m r = true → (c.verif m).verified = true) ∨
        ((∀ m : JacketNo, c.eligible m r = true → (c.verif m).verified = true) ∧
          c.eligible n r = true ∧ ∀ m : JacketNo, m.val < n.val → c.eligible m r = false)) : c.jacketFor r = some n := by
  have fresh (m : JacketNo) (verified : c.eligible m r = true → (c.verif m).verified = true) :
      (c.eligible m r && !(c.verif m).verified) = false := by
    cases fit : c.eligible m r with
    | false => rfl
    | true => rw [verified fit]; rfl
  rw [Controller.jacketFor]
  by_cases ordinary : r.spec.reference = none
  · rw [if_pos ordinary] at chosen
    have plain : ¬r.spec.isReference = true := by rw [TypeEntry.isReference, ordinary]; exact Bool.false_ne_true
    exact (if_neg plain).trans ((find_jacketNumbers _ n).mpr chosen)
  · rw [if_neg ordinary] at chosen
    refine (if_pos (Option.isSome_iff_ne_none.mpr ordinary)).trans ?_
    rcases chosen with ⟨fit, unverified, before⟩ | ⟨verified, lowest⟩
    · rw [(find_jacketNumbers (fun n => c.eligible n r && !(c.verif n).verified) n).mpr
        ⟨by rw [fit, unverified]; rfl, fun m less => fresh m (before m less)⟩]
      rfl
    · rw [(find_jacketNumbers_none fun n => c.eligible n r && !(c.verif n).verified).mpr fun m => fresh m (verified m), Option.none_or]
      exact (find_jacketNumbers _ n).mpr lowest

theorem jacketFor_none (unfit : ∀ n, c.eligible n r = false) : c.jacketFor r = none := by
  rw [Controller.jacketFor, (find_jacketNumbers_none _).mpr unfit, (find_jacketNumbers_none _).mpr fun n => by rw [unfit n, Bool.false_and]]
  exact ite_self _

theorem isWaiting_iff (r : Record) : r.isWaiting = true ↔ r.state = .waiting ∧ r.releasePending = false := by
  rw [Record.isWaiting, Bool.and_eq_true, beq_iff_eq, Bool.not_eq_true']

theorem recordFor_eq (c : Controller) (n : JacketNo) : c.recordFor n = c.records.find? fun r => r.isWaiting && c.eligible n r := by
  rw [Controller.recordFor, Controller.waitingQueue, List.find?_filter]
  simp only [Bool.decide_and, Bool.decide_eq_true]

/-- A record turned down by a jacket pass: it does not wait, or the jacket is not eligible for it. -/
theorem turnedDown_iff (c : Controller) (n : JacketNo) (x : Record) :
    (x.isWaiting && c.eligible n x) = false ↔ (x.state = .waiting → x.releasePending = false → c.eligible n x = false) := by
  rw [Bool.and_eq_false_iff, ← and_imp, ← isWaiting_iff]
  cases x.isWaiting <;> simp

theorem recordFor_none (down : ∀ x ∈ c.records, x.state = .waiting → x.releasePending = false → c.eligible n x = false) :
    c.recordFor n = none := by
  rw [recordFor_eq, List.find?_eq_none]
  exact fun x member => ne_true_of_eq_false ((turnedDown_iff c n x).mpr (down x member))

theorem recordFor_oldest {older younger : List Record} (split : c.records = older ++ r :: younger)
    (down : ∀ x ∈ older, x.state = .waiting → x.releasePending = false → c.eligible n x = false) (waits : r.state = .waiting)
    (free : r.releasePending = false) (fit : c.eligible n r = true) : c.recordFor n = some r := by
  have before : (older.find? fun r => r.isWaiting && c.eligible n r) = none :=
    List.find?_eq_none.mpr fun x member => ne_true_of_eq_false ((turnedDown_iff c n x).mpr (down x member))
  have takes : (r.isWaiting && c.eligible n r) = true := by rw [(isWaiting_iff r).mpr ⟨waits, free⟩, fit]; rfl
  rw [recordFor_eq, split, List.find?_append, before, Option.none_or, List.find?_cons, takes]

/-! ### The attempts of a jacket pass (R80, R82) -/

/-- A failed chain check takes its record from the waiting queue. -/
theorem programFault_fewer (distinct : c.SlotsDistinct) (chosen : c.recordFor n = some x) :
    (c.programFault x).waitingQueue.length < c.waitingQueue.length := by
  obtain ⟨member, waits, free, -⟩ := recordFor_waits chosen
  have here := recordAt_of_mem distinct member
  let f : Record → Record := fun r => { r with verdict := some (.manual .program), state := .leaving }
  have updated_distinct : (c.updRecord x.slot f).SlotsDistinct := by
    rw [Controller.SlotsDistinct, map_updRecord c x.slot f Record.slot fun _ => rfl]
    exact distinct
  have served : Serves (c.updRecord x.slot f) (c.programFault x) := (makeOrders_serves _ _ _).trans (raise_serves _ _ _ _)
  have same := congrArg List.length (served.waiting updated_distinct)
  rw [List.length_map, List.length_map] at same
  have moved : ((c.updRecord x.slot f).waitingQueue).length = (c.waitingQueue.filter fun r => r.slot != x.slot).length := by
    rw [Controller.waitingQueue, Controller.waitingQueue, List.filter_filter]
    show ((c.records.map fun r => if r.slot = x.slot then f r else r).filter _).length = _
    rw [List.filter_map, List.length_map]
    refine congrArg List.length (List.filter_congr fun r _ => ?_)
    show Record.isWaiting (if r.slot = x.slot then f r else r) = (r.slot != x.slot && r.isWaiting)
    by_cases at_slot : r.slot = x.slot
    · rw [if_pos at_slot, at_slot, bne_self_eq_false]
      rfl
    · rw [if_neg at_slot, bne_iff_ne.mpr at_slot, Bool.true_and]
  rw [same, moved]
  exact List.length_filter_lt_length_iff_exists.mpr ⟨x, List.mem_filter.mpr ⟨member, (isWaiting_iff x).mpr ⟨waits, free⟩⟩, by simp⟩

/-- Attempts beyond the length of the waiting queue change nothing. -/
theorem jacketPassDepth_enough (n : JacketNo) (k : Nat) (c : Controller) (distinct : c.SlotsDistinct) (enough : c.waitingQueue.length ≤ k) :
    Controller.jacketPassDepth (k + 1) c n = Controller.jacketPassDepth k c n := by
  induction k generalizing c with
  | zero =>
    have none : c.recordFor n = none := by
      rw [Controller.recordFor, List.length_eq_zero_iff.mp (Nat.le_zero.mp enough)]
      rfl
    show (match c.recordFor n with | Option.none => c | some _ => _) = c
    rw [none]
  | succ k ih =>
    rw [Controller.jacketPassDepth, Controller.jacketPassDepth]
    split
    · rfl
    · next x chosen =>
      split
      · rfl
      · exact ih _ ((programFault_settles c x).changes.slotsDistinct distinct)
          (Nat.lt_succ_iff.mp ((programFault_fewer distinct chosen).trans_le enough))

theorem jacketPassDepth_same (n : JacketNo) (distinct : c.SlotsDistinct) {k : Nat} (enough : c.waitingQueue.length ≤ k) :
    Controller.jacketPassDepth k c n = Controller.jacketPassDepth c.waitingQueue.length c n := by
  induction k, enough using Nat.le_induction with
  | base => rfl
  | succ k enough ih => rw [jacketPassDepth_enough n k c distinct enough, ih]

theorem lineMoving_iff (c : Controller) : c.lineMoving = true ↔ c.line.state = .running ∨ c.line.state = .stopping := by
  rw [Controller.lineMoving, Bool.or_eq_true, beq_iff_eq, beq_iff_eq]

theorem waitingQueue_length (c : Controller) : c.waitingQueue.length ≤ c.records.length := List.length_filter_le _ _

section Pass
variable (moving : c.line.state = .running ∨ c.line.state = .stopping)
include moving

theorem jacketPass_rests (none : c.recordFor n = none) : c.jacketPass n = c := by
  rw [Controller.jacketPass, if_pos ((lineMoving_iff c).mpr moving), Controller.jacketPassDepth, none]

variable (chosen : c.recordFor n = some r)
include chosen

theorem jacketPass_assigns (ok : c.tables.chainOk r.spec.programStart = true) : c.jacketPass n = c.assign r n := by
  rw [Controller.jacketPass, if_pos ((lineMoving_iff c).mpr moving), Controller.jacketPassDepth, chosen]
  exact if_pos ok

/-- A failed chain check is followed by a jacket pass (R82). -/
theorem jacketPass_faults (distinct : c.SlotsDistinct) (bad : c.tables.chainOk r.spec.programStart = false) :
    c.jacketPass n = (c.programFault r).jacketPass n := by
  obtain ⟨member, -, free, -⟩ := recordFor_waits chosen
  have only := programFault_onlySlot c r (recordAt_free distinct member free)
  have left := (programFault_settles c r).changes.slotsDistinct distinct
  have first : c.jacketPass n = Controller.jacketPassDepth c.records.length (c.programFault r) n := by
    rw [Controller.jacketPass, if_pos ((lineMoving_iff c).mpr moving), Controller.jacketPassDepth, chosen]
    exact if_neg (ne_true_of_eq_false bad)
  have still : (c.programFault r).lineMoving = true := (lineMoving_iff _).mpr (by rw [only.line]; exact moving)
  have fewer := (programFault_fewer distinct chosen).le.trans (waitingQueue_length c)
  rw [first, Controller.jacketPass, if_pos still, jacketPassDepth_same n left fewer,
    jacketPassDepth_same n left ((waitingQueue_length _).trans (Nat.le_succ _))]

end Pass

end Sys2Proof.Machine
end

section
/-! SUPPORT. What an assignment and a failed chain check give (O20, R82, R83). -/
namespace Sys2Proof.Machine

variable {c d : Controller} {slot : Nat} {r x y : Record} {n m : JacketNo}

theorem OnlyPlaces.ordered (h : OnlyPlaces c d) {serial : Serial} {o : Order} (made : c.Ordered slot serial o) : d.Ordered slot serial o := by
  rcases made with ⟨e, member, rest⟩ | ⟨r, here, owed⟩
  · exact .inl ⟨e, h.stays member, rest⟩
  · exact .inr ⟨r, (h.recordAt slot).trans here, owed⟩

section Pass
variable (distinct : c.SlotsDistinct) (here : c.recordAt r.slot = some r) (free : r.releasePending = false)
include distinct here free

/-- An assignment gives its record to the jacket and leaves the others (R83). -/
theorem assign_gives (n : JacketNo) :
    (∃ r', (c.assign r n).recordAt r.slot = some r' ∧ r.SameIdentity r' ∧ r'.state = .routed ∧ r'.jacket = some n ∧ r'.attempts = r.attempts) ∧
    (c.assign r n).jacket n = { c.jacket n with
      state := .awaiting, awaited := some r.serial, slot := some r.slot, programStart := r.spec.programStart } ∧
    (∀ m : JacketNo, m ≠ n → (c.assign r n).jacket m = c.jacket m) ∧ (c.assign r n).line = c.line ∧ (c.assign r n).tables = c.tables ∧
    (c.assign r n).verification = c.verification ∧ (∀ x ∈ c.records, x.slot ≠ r.slot → x ∈ (c.assign r n).records) ∧
    (c.assign r n).Ordered r.slot r.serial (.gate (.jacket n)) := by
  have member := recordAt_mem here
  have assigned : (c.assigned r n).recordAt r.slot = some { r with state := .routed, jacket := some n } := by
    refine (recordAt_updRecord c r.slot (fun r => { r with state := .routed, jacket := some n }) fun _ => rfl).trans ?_
    rw [here]
    rfl
  have makes := makeOrders_makes assigned free [.gate (.jacket n)]
  obtain ⟨x, there, same, -⟩ := makes.record
  have only := assign_offLine c r n (recordAt_free distinct member free)
  refine ⟨⟨x, there, ?_, ?_⟩, assign_jacket distinct member free, fun m other => assign_other distinct member free other, only.line, only.tables,
    only.verification, fun y there apart => assign_stays distinct member free there apart,
    makes.ordered (List.mem_append_right _ (List.mem_singleton_self _))⟩
  · exact sameIdentity_of_bare (r := { r with state := .routed, jacket := some n }) same.symm
  · rw [eq_of_bare same.symm]
    exact ⟨rfl, rfl, rfl⟩

/-- A failed chain check diverts its record, is reported, and leaves the others (R82). -/
theorem programFault_gives :
    (∃ r', (c.programFault r).recordAt r.slot = some r' ∧ r.SameIdentity r' ∧ r'.verdict = some (.manual .program) ∧ r'.state = .leaving ∧
      r'.lastResult = r.lastResult) ∧
    (c.programFault r).Ordered r.slot r.serial (.gate .manual) ∧ (c.programFault r).Reported .programFault r.serial r.spec.programStart ∧
    (c.programFault r).jackets = c.jackets ∧ (c.programFault r).line = c.line ∧ (c.programFault r).tables = c.tables ∧
    (c.programFault r).verification = c.verification ∧ ∀ x ∈ c.records, x.slot ≠ r.slot → x ∈ (c.programFault r).records := by
  have member := recordAt_mem here
  have makes := divert_makes here free (.manual .program) .manual
  have raised := raise_onlyPlaces (c.divert r.slot (.manual .program) .manual) .programFault r.serial r.spec.programStart
  obtain ⟨x, there, same, -⟩ := makes.record
  have only := programFault_onlySlot c r (recordAt_free distinct member free)
  refine ⟨⟨x, (raised.recordAt r.slot).trans there, ?_, ?_⟩, raised.ordered (makes.ordered (List.mem_append_right _ (List.mem_singleton_self _))),
    raise_reported _ _ _ _, only.jackets, only.line, only.tables, only.verification,
    fun y there apart => programFault_stays distinct member free there apart⟩
  · exact sameIdentity_of_bare (r := { r with verdict := some (.manual .program), state := .leaving }) same.symm
  · rw [eq_of_bare same.symm]
    exact ⟨rfl, rfl, rfl⟩

end Pass

/-! ### The record pass (R79) -/

section RecordPass
variable (here : c.recordAt r.slot = some r) (waits : r.state = .waiting) (free : r.releasePending = false)
  (moving : c.line.state = .running ∨ c.line.state = .stopping)
include here waits free moving

theorem recordPass_rests (none : c.jacketFor r = none) : c.recordPass r.slot = c := by
  rw [Controller.recordPass, if_pos ((lineMoving_iff c).mpr moving), here]
  dsimp only
  rw [if_pos ((isWaiting_iff r).mpr ⟨waits, free⟩), none]

theorem recordPass_chooses (chosen : c.jacketFor r = some n) : c.recordPass r.slot =
    if c.tables.chainOk r.spec.programStart then c.assign r n else (c.programFault r).jacketPass n := by
  rw [Controller.recordPass, if_pos ((lineMoving_iff c).mpr moving), here]
  dsimp only
  rw [if_pos ((isWaiting_iff r).mpr ⟨waits, free⟩), chosen]

end RecordPass

/-- Settles O20: the chain's walk by its length, and each pass by the record and the jacket it chooses. -/
theorem recordPassAssigns : Obligations.RecordPassAssigns := by
  unfold Obligations.RecordPassAssigns
  intro given diverted
  refine ⟨chainOk_iff, eligible_iff, fun c stands => ?_, fun c r sound here waits free moving => ?_, fun c n sound moving => ?_⟩
  · have still : c.lineMoving = false := Bool.eq_false_iff.mpr fun moving => by
      rcases (lineMoving_iff c).mp moving with state | state <;> rw [state] at stands <;> exact stands.elim nofun nofun
    exact ⟨fun slot => (passes_held_over c still slot 0).1, fun n => (passes_held_over c still 0 n).2⟩
  · intro d lowest chosen
    refine ⟨fun unfit => recordPass_rests here waits free moving (jacketFor_none unfit), fun n yes => ?_⟩
    have choice := jacketFor_chosen yes
    have pass := recordPass_chooses here waits free moving choice
    refine ⟨choice, fun ok => ?_, fun bad => ?_⟩
    · have assigned : d = c.assign r n := pass.trans (if_pos ok)
      rw [assigned]
      exact assign_gives sound.2.2.1 here free n
    · exact ⟨_, programFault_gives sound.2.2.1 here free, pass.trans (if_neg (ne_true_of_eq_false bad))⟩
  · intro turnedDown
    refine ⟨fun down => jacketPass_rests moving (recordFor_none down), fun older younger r split down waits free fit => ?_⟩
    have chosen := recordFor_oldest split down waits free fit
    have here : c.recordAt r.slot = some r := recordAt_of_mem sound.2.2.1 (recordFor_waits chosen).1
    refine ⟨fun ok => ?_, fun bad => ⟨_, programFault_gives sound.2.2.1 here free, jacketPass_faults moving chosen sound.2.2.1 bad⟩⟩
    rw [jacketPass_assigns moving chosen ok]
    exact assign_gives sound.2.2.1 here free n

end Sys2Proof.Machine
end

section
/-! SUPPORT. The entry to a block (R98, R103, R105 to R107), RAMP blocks (O24) and settled records (O25). -/
namespace Sys2Proof.Machine

variable {c d : Controller} {n m : JacketNo} {b : Block}

/-! ### The entry to a block (R98) -/

/-- A DWELL that completes on entry (R106, R107). -/
def Block.Passes (b : Block) : Prop := b.kind = .dwell ∧ b.duration = 0 ∧ b.chain = true

/-- The jacket begins a block, and makes the command the block makes on entry. -/
def Controller.entered (c : Controller) (n : JacketNo) (b : Block) : Controller := (c.updJacket n (Jacket.beginBlock b)).blockCommand n b

theorem enterBlockDepth_stops (stops : ¬(c.currentBlock n).Passes) (k : Nat) :
    Controller.enterBlockDepth (k + 1) c n = c.entered n (c.currentBlock n) := if_neg stops

theorem enterBlockDepth_passes (passes : (c.currentBlock n).Passes) (k : Nat) :
    Controller.enterBlockDepth (k + 1) c n =
      Controller.enterBlockDepth k ((c.entered n (c.currentBlock n)).updJacket n fun j => { j with currentBlock := j.currentBlock + 1 }) n :=
  if_pos passes

theorem enterBlock_stops (stops : ¬(c.currentBlock n).Passes) : c.enterBlock n = c.entered n (c.currentBlock n) := enterBlockDepth_stops stops 96

theorem entered_plain (vent : b.kind ≠ .vent) (ramp : b.kind ≠ .ramp) : c.entered n b = c.updJacket n (Jacket.beginBlock b) := by
  rw [Controller.entered, Controller.blockCommand]
  split
  · next kind => exact absurd kind ramp
  · next kind => exact absurd kind vent
  · rfl
  · rfl
  · rfl

theorem entered_ramp (ramp : b.kind = .ramp) : c.entered n b = (c.updJacket n (Jacket.beginBlock b)).offerCommand n
    (.set (min 65535 (rampTarget ((c.updJacket n (Jacket.beginBlock b)).servedSpec n) b)) b.rate) := by
  rw [Controller.entered, Controller.blockCommand, ramp]
  rfl

theorem entered_vent (vent : b.kind = .vent) : c.entered n b = (c.updJacket n (Jacket.beginBlock b)).makeVent n := by
  rw [Controller.entered, Controller.blockCommand, vent]

theorem entered_jacket (c : Controller) (n : JacketNo) (b : Block) :
    (c.entered n b).jacket n = { (c.jacket n).beginBlock b with owedCommand := ((c.entered n b).jacket n).owedCommand } := by
  have begun : (c.updJacket n (Jacket.beginBlock b)).jacket n = (c.jacket n).beginBlock b := by rw [jacket_updJacket, if_pos rfl]
  have same : SameButOwed (c.updJacket n (Jacket.beginBlock b)) (c.entered n b) := by
    by_cases ramp : b.kind = .ramp
    · rw [entered_ramp ramp]
      exact offerCommand_sameButOwed _ _ _
    · by_cases vent : b.kind = .vent
      · rw [entered_vent vent]
        exact makeVent_sameButOwed _ _
      · rw [entered_plain vent ramp]
        exact .refl
  rw [same n, begun]

/-- The specification of the cylinder a jacket serves does not depend on the rest of its context. -/
theorem servedSpec_updJacket {f : Jacket → Jacket} (keeps : (f (c.jacket n)).slot = (c.jacket n).slot) :
    (c.updJacket n f).servedSpec n = c.servedSpec n := by
  rw [Controller.servedSpec, Controller.served, jacket_updJacket, if_pos rfl, keeps]
  rfl

theorem entered_commands (c : Controller) (n : JacketNo) (b : Block) :
    (b.kind = .vent → (c.entered n b).Commanded n .vent) ∧
      (b.kind = .ramp → (c.entered n b).Commanded n (.set (min 65535 (((c.servedSpec n).ptest * b.target + 500) / 1000)) b.rate)) := by
  refine ⟨fun vent => ?_, fun ramp => ?_⟩
  · rw [entered_vent vent]
    exact makeVent_commanded _ n
  · rw [entered_ramp ramp, servedSpec_updJacket (f := Jacket.beginBlock b) rfl]
    exact offerCommand_commanded _ n _

theorem entered_quiet (vent : b.kind ≠ .vent) (ramp : b.kind ≠ .ramp) :
    ((c.entered n b).jacket n).owedCommand = (c.jacket n).owedCommand ∧ (c.entered n b).ring = c.ring ∧ (c.entered n b).records = c.records := by
  rw [entered_plain vent ramp, jacket_updJacket, if_pos rfl]
  exact ⟨rfl, rfl, rfl⟩

/-- A block that neither vents nor ramps only begins. -/
theorem enterBlock_begins {kind : BlockKind} (kind_eq : (c.currentBlock n).kind = kind) (plain : kind = .zero ∨ kind = .hold) :
    c.enterBlock n = c.updJacket n (Jacket.beginBlock (c.currentBlock n)) := by
  have apart : kind ≠ .vent ∧ kind ≠ .ramp ∧ kind ≠ .dwell := by rcases plain with rfl | rfl <;> exact ⟨nofun, nofun, nofun⟩
  rw [← kind_eq] at apart
  rw [enterBlock_stops fun passes => apart.2.2 passes.1, entered_plain apart.1 apart.2.1]

theorem currentBlock_updJacket {f : Jacket → Jacket} : (c.updJacket n f).currentBlock n = c.tables.blockAt (f (c.jacket n)).currentBlock := by
  rw [Controller.currentBlock, jacket_updJacket, if_pos rfl]
  rfl

theorem completeBlock_chains (chain : (c.currentBlock n).chain = true) :
    c.completeBlock n = (c.updJacket n fun j => { j with currentBlock := j.currentBlock + 1 }).enterBlock n := if_pos chain

theorem completeBlock_ends (last : (c.currentBlock n).chain = false) : c.completeBlock n = c.evaluate n := if_neg (ne_true_of_eq_false last)

/-! ### RAMP blocks (R103) -/

theorem blockSample_ramp (ramp : (c.currentBlock n).kind = .ramp) (x : Sample) : c.blockSample n x =
    if rampThreshold (c.servedSpec n) (c.currentBlock n) ≤ x.pressure then c.completeBlock n else c := by
  rw [Controller.blockSample, ramp]

theorem takeSample_within {x : Sample} {k : BlockKind} (running : (c.jacket n).state = .running k)
    (within : x.pressure ≤ (c.servedSpec n).pressureLimit) :
    c.takeSample n x = (c.updJacket n fun j => { j with sampleAge := 0 }).blockSample n x := by
  simp only [Controller.takeSample, running, if_neg (Nat.not_lt.mpr within)]

theorem takeSample_low {x : Sample} {reason : RecoverReason} (recovering : (c.jacket n).state = .recovering reason)
    (low : x.pressure ≤ c.line.items.zeroThreshold) :
    c.takeSample n x = (c.updJacket n fun j => { j with sampleAge := 0 }).endRecovery n reason := by
  simp only [Controller.takeSample, recovering, if_pos low]

/-- The part once a sample's frame is forwarded and its jacket's sample age begins afresh (R2, R99). -/
def Controller.sampled (c : Controller) (h : Header) (p : List Byte) (n : JacketNo) : Controller :=
  (c.placeForward ({ header := h, kind := 5, payload := p } : Frame).wire).updJacket n fun j => { j with sampleAge := 0 }

theorem sampled_same (c : Controller) (h : Header) (p : List Byte) (n : JacketNo) :
    (c.sampled h p n).jacket n = { c.jacket n with sampleAge := 0 } ∧ (c.sampled h p n).servedSpec n = c.servedSpec n ∧
      (c.sampled h p n).currentBlock n = c.currentBlock n := by
  refine ⟨?_, servedSpec_updJacket (f := fun j => { j with sampleAge := 0 }) rfl, currentBlock_updJacket⟩
  rw [Controller.sampled, jacket_updJacket, if_pos rfl]
  rfl

/-- Settles O24: the entry makes the SET, and a sample at or above the threshold completes the block. -/
theorem rampBlock : Obligations.RampBlock := by
  refine ⟨fun c n ramp => ?_, fun s h p x n size hears role read running ramp within => ?_⟩
  · have stops : ¬(c.currentBlock n).Passes := fun passes => by
      have := passes.1
      rw [ramp] at this
      cases this
    rw [enterBlock_stops stops]
    refine ⟨(entered_commands c n _).2 ramp, ?_⟩
    rw [entered_jacket, Jacket.beginBlock, ramp]
  · intro threshold
    have run := exec_jacketSample hears role read
    rw [takeSample_within (c := s.part.placeForward _) running within] at run
    obtain ⟨same, spec, block⟩ := sampled_same s.part h p n
    have tables : (s.part.sampled h p n).tables = s.part.tables := rfl
    have queue : (s.part.sampled h p n).ring.queue = s.part.ring.queue := rfl
    change exec _ s = .next (s.withPart ((s.part.sampled h p n).blockSample n x)) at run
    generalize s.part.sampled h p n = c at run same spec block tables queue
    have target : rampThreshold (c.servedSpec n) (c.currentBlock n) = threshold := by rw [spec, block]; rfl
    rw [blockSample_ramp (by rw [block]; exact ramp), target] at run
    refine ⟨fun below => ?_, fun reached chain hold => ?_⟩
    · rw [if_neg (Nat.not_le.mpr below)] at run
      exact ⟨c, run, same, queue⟩
    · rw [if_pos reached, completeBlock_chains (by rw [block]; exact chain)] at run
      have next : (c.updJacket n fun j => { j with currentBlock := j.currentBlock + 1 }).currentBlock n =
          s.part.tables.blockAt ((s.part.jacket n).currentBlock + 1) := by rw [currentBlock_updJacket, tables, same]
      rw [enterBlock_begins (kind := .hold) (by rw [next]; exact hold) (.inr rfl), next] at run
      refine ⟨_, run, ?_⟩
      rw [jacket_updJacket, if_pos rfl, jacket_updJacket, if_pos rfl, same, Jacket.beginBlock, hold]
      rfl

end Sys2Proof.Machine
end

section
/-! SUPPORT. Settled records (O25, R102 to R107). -/
namespace Sys2Proof.Machine

variable {c d : Controller} {n : JacketNo} {b : Block} {m : Means}

/-! ### What the entry to a block keeps of its jacket -/

/-- The readings of a jacket, its program's start and early end, and the cylinder it serves. -/
def Jacket.kept (j : Jacket) := (j.zero, j.hold, j.vent, j.earlyEnd, j.slot, j.programStart, j.restartPending, j.loaded, j.awaited)

theorem entered_kept (c : Controller) (n : JacketNo) (b : Block) : ((c.entered n b).jacket n).kept = (c.jacket n).kept := by
  rw [entered_jacket]
  rfl

theorem updJacket_kept {f : Jacket → Jacket} (keeps : ∀ j, (f j).kept = j.kept) : ((c.updJacket n f).jacket n).kept = (c.jacket n).kept := by
  rw [jacket_updJacket, if_pos rfl]
  exact keeps _

/-- What the entry to each block keeps, the entry to a chain's next block keeps (R98, R107). -/
theorem enterBlockDepth_keep {P : Controller → Prop} (enter : ∀ c, P c → P (c.entered n (c.currentBlock n)))
    (next : ∀ c, P c → P (c.updJacket n fun j => { j with currentBlock := j.currentBlock + 1 })) (k : Nat) (c : Controller) (h : P c) :
    P (Controller.enterBlockDepth k c n) := by
  induction k generalizing c with
  | zero => exact h
  | succ k ih =>
    by_cases passes : (c.currentBlock n).Passes
    · rw [enterBlockDepth_passes passes]
      exact ih _ (next _ (enter c h))
    · rw [enterBlockDepth_stops passes]
      exact enter c h

theorem enterBlock_kept (c : Controller) (n : JacketNo) : ((c.enterBlock n).jacket n).kept = (c.jacket n).kept :=
  enterBlockDepth_keep (P := fun d => (d.jacket n).kept = (c.jacket n).kept) (fun d h => (entered_kept d n _).trans h)
    (fun _ h => (updJacket_kept (f := fun j => { j with currentBlock := j.currentBlock + 1 }) fun _ => rfl).trans h) 97 c rfl

theorem entered_running (c : Controller) (n : JacketNo) (b : Block) : ((c.entered n b).jacket n).state = .running b.kind := by
  rw [entered_jacket]
  rfl

theorem enterBlock_running (c : Controller) (n : JacketNo) : ((c.enterBlock n).jacket n).state.isRunning = true := by
  have entered (d : Controller) : ((d.entered n (d.currentBlock n)).jacket n).state.isRunning = true := by
    rw [entered_running]
    rfl
  have later (d : Controller) (h : (d.jacket n).state.isRunning = true) :
      ((d.updJacket n fun j => { j with currentBlock := j.currentBlock + 1 }).jacket n).state.isRunning = true := by
    rw [jacket_updJacket, if_pos rfl]
    exact h
  by_cases passes : (c.currentBlock n).Passes
  · show ((Controller.enterBlockDepth (96 + 1) c n).jacket n).state.isRunning = true
    rw [enterBlockDepth_passes passes]
    exact enterBlockDepth_keep (P := fun d => (d.jacket n).state.isRunning = true) (fun d _ => entered d) later 96 _ (later _ (entered c))
  · rw [enterBlock_stops passes]
    exact entered c

/-! ### A settled record in a block that leads to another (R102, R104, R105, R107) -/

/-- Whether the pressure of a reading HOLD has fallen by more than its allowance (R104). -/
def Controller.Leaks (c : Controller) (n : JacketNo) (b : Block) (m : Means) : Prop :=
  ∃ a, b.leak = some a ∧ m.pressure + a < ((c.jacket n).firstPressure).getD 0

theorem updJacket_congr {f g : Jacket → Jacket} (same : f (c.jacket n) = g (c.jacket n)) : c.updJacket n f = c.updJacket n g := by
  rw [Controller.updJacket, same, Controller.updJacket]

section Chained
variable (chain : (c.currentBlock n).chain = true)
include chain

/-- A change of the readings, and then the next block. -/
theorem updJacket_completes {f : Jacket → Jacket} (keeps : (f (c.jacket n)).currentBlock = (c.jacket n).currentBlock) :
    (c.updJacket n f).completeBlock n =
      (c.updJacket n fun j => { f j with currentBlock := (c.jacket n).currentBlock + 1 }).enterBlock n := by
  have still : ((c.updJacket n f).currentBlock n).chain = true := by
    rw [currentBlock_updJacket, keeps]
    exact chain
  rw [completeBlock_chains still, updJacket_updJacket]
  exact congrArg (fun d : Controller => d.enterBlock n) (updJacket_congr (by rw [keeps]))

theorem settle_zero (zero : (c.currentBlock n).kind = .zero) : c.settle n (c.currentBlock n) m =
    (c.updJacket n fun j => { j with zero := some ⟨m.level, m.temperature⟩, currentBlock := (c.jacket n).currentBlock + 1 }).enterBlock n := by
  rw [Controller.settle, zero]
  exact updJacket_completes chain rfl

theorem settle_reads (hold : (c.currentBlock n).kind = .hold) (reads : (c.currentBlock n).reading = true)
    (tight : ¬c.Leaks n (c.currentBlock n) m) : c.settle n (c.currentBlock n) m =
    (c.updJacket n fun j =>
      { j with hold := some ⟨m.level - firstOf j.zero, m.pressure⟩, currentBlock := (c.jacket n).currentBlock + 1 }).enterBlock n := by
  have completes := updJacket_completes (f := fun j => { j with hold := some ⟨m.level - firstOf j.zero, m.pressure⟩ }) chain rfl
  rw [Controller.settle, hold]
  dsimp only
  rw [if_pos reads]
  split
  · next a leak =>
    rw [if_neg fun fell => tight ⟨a, leak, fell⟩]
    exact completes
  · exact completes

omit chain in
theorem settle_leaks (hold : (c.currentBlock n).kind = .hold) (reads : (c.currentBlock n).reading = true)
    (leaks : c.Leaks n (c.currentBlock n) m) : c.settle n (c.currentBlock n) m =
    (c.updJacket n fun j => { j with hold := some ⟨m.level - firstOf j.zero, m.pressure⟩ }).earlyEnd n .leak := by
  obtain ⟨a, leak, fell⟩ := leaks
  rw [Controller.settle, hold]
  dsimp only
  rw [if_pos reads, leak]
  exact if_pos fell

theorem settle_plain (plain : (c.currentBlock n).kind = .vent ∨ ((c.currentBlock n).kind = .hold ∧ (c.currentBlock n).reading = false)) :
    c.settle n (c.currentBlock n) m =
      (c.updJacket n fun j => { j with currentBlock := (c.jacket n).currentBlock + 1 }).enterBlock n := by
  have completes : c.completeBlock n = (c.updJacket n fun j => { j with currentBlock := (c.jacket n).currentBlock + 1 }).enterBlock n :=
    (completeBlock_chains chain).trans (congrArg (fun d : Controller => d.enterBlock n) (updJacket_congr rfl))
  rw [Controller.settle]
  rcases plain with vent | ⟨hold, other⟩
  · rw [vent]
    exact (if_pos chain).trans completes
  · rw [hold]
    exact (if_neg (ne_true_of_eq_false other)).trans completes

end Chained

/-- The last VENT gives its reading, and the evaluation follows (R105, R107). -/
theorem settle_last (vent : (c.currentBlock n).kind = .vent) (last : (c.currentBlock n).chain = false) : c.settle n (c.currentBlock n) m =
    (c.updJacket n fun j => { j with vent := some ⟨m.level - firstOf j.zero, m.temperature⟩ }).evaluate n := by
  have still : ((c.updJacket n fun j => { j with vent := some ⟨m.level - firstOf j.zero, m.temperature⟩ }).currentBlock n).chain = false := by
    rw [currentBlock_updJacket]
    exact last
  rw [Controller.settle, vent]
  exact (if_neg (ne_true_of_eq_false last)).trans (completeBlock_ends still)

/-! ### The entry to a block, and to the one behind a DWELL of no duration (R98, R106) -/

theorem settleStart_eq (k : BlockKind) (before : Option Nat) :
    k.settleStart before = if k = .zero ∨ k = .hold then some 0 else if k ≠ .ramp then none else before := by
  cases k <;> simp [BlockKind.settleStart]

theorem passes_dwell (passes : b.Passes) : b.kind ≠ .vent ∧ b.kind ≠ .ramp := by
  rw [passes.1]
  exact ⟨nofun, nofun⟩

/-- The part whose jacket has passed through a DWELL of no duration. -/
theorem enterBlock_passes (passes : (c.currentBlock n).Passes)
    (stops : ¬(c.tables.blockAt ((c.jacket n).currentBlock + 1)).Passes) : c.enterBlock n =
      (c.updJacket n fun j => { j.beginBlock (c.currentBlock n) with currentBlock := (c.jacket n).currentBlock + 1 }).entered n
        (c.tables.blockAt ((c.jacket n).currentBlock + 1)) := by
  have first : (c.entered n (c.currentBlock n)).updJacket n (fun j => { j with currentBlock := j.currentBlock + 1 }) =
      c.updJacket n fun j => { j.beginBlock (c.currentBlock n) with currentBlock := (c.jacket n).currentBlock + 1 } := by
    rw [entered_plain (passes_dwell passes).1 (passes_dwell passes).2, updJacket_updJacket]
    exact updJacket_congr rfl
  have here : (c.updJacket n fun j => { j.beginBlock (c.currentBlock n) with currentBlock := (c.jacket n).currentBlock + 1 }).currentBlock n =
      c.tables.blockAt ((c.jacket n).currentBlock + 1) := currentBlock_updJacket
  show Controller.enterBlockDepth (96 + 1) c n = _
  rw [enterBlockDepth_passes passes, first]
  show Controller.enterBlockDepth (95 + 1) _ n = _
  rw [enterBlockDepth_stops (by rw [here]; exact stops), here]

/-- Settles O25: the readings by the block's kind, then the block behind, or the evaluation. -/
theorem settledRecordGivesReadings : Obligations.SettledRecordGivesReadings := by
  refine ⟨fun c n m chain => ?_, fun c n m chain => ?_, fun c n => ?_, fun c n m vent last => ?_⟩
  · intro d
    have plain (kind : (c.currentBlock n).kind = .vent ∨ ((c.currentBlock n).kind = .hold ∧ (c.currentBlock n).reading = false)) :
        (d.jacket n).kept = (c.jacket n).kept := by
      have left := enterBlock_kept (c.updJacket n fun j => { j with currentBlock := (c.jacket n).currentBlock + 1 }) n
      rw [← settle_plain chain kind] at left
      exact left.trans (updJacket_kept (f := fun j => { j with currentBlock := (c.jacket n).currentBlock + 1 }) fun _ => rfl)
    refine ⟨fun zero => ?_, fun hold reads => ?_, fun hold other => ?_, fun vent => ?_⟩
    · have left := enterBlock_kept (c.updJacket n fun j =>
        { j with zero := some ⟨m.level, m.temperature⟩, currentBlock := (c.jacket n).currentBlock + 1 }) n
      rw [← settle_zero chain zero, jacket_updJacket, if_pos rfl] at left
      exact congrArg (fun k => k.1) left
    · by_cases leaks : c.Leaks n (c.currentBlock n) m
      · obtain ⟨owed, left⟩ := earlyEnd_jacket (c.updJacket n fun j => { j with hold := some ⟨m.level - firstOf j.zero, m.pressure⟩ }) n .leak
        rw [← settle_leaks hold reads leaks, jacket_updJacket, if_pos rfl] at left
        have here : d.jacket n = _ := left
        rw [here]
        obtain ⟨a, leak, fell⟩ := leaks
        refine ⟨rfl, fun a' leak' => ⟨fun _ => ⟨rfl, rfl⟩, fun kept => absurd fell ?_⟩⟩
        obtain rfl : a = a' := Option.some.inj (leak.symm.trans leak')
        exact Nat.not_lt.mpr kept
      · have left := enterBlock_kept (c.updJacket n fun j =>
          { j with hold := some ⟨m.level - firstOf j.zero, m.pressure⟩, currentBlock := (c.jacket n).currentBlock + 1 }) n
        have running := enterBlock_running (c.updJacket n fun j =>
          { j with hold := some ⟨m.level - firstOf j.zero, m.pressure⟩, currentBlock := (c.jacket n).currentBlock + 1 }) n
        rw [← settle_reads chain hold reads leaks] at left running
        rw [jacket_updJacket, if_pos rfl] at left
        exact ⟨congrArg (fun k => k.2.1) left, fun a leak => ⟨fun fell => absurd ⟨a, leak, fell⟩ leaks,
          fun _ => ⟨congrArg (fun k => k.2.2.2.1) left, running⟩⟩⟩
    · exact congrArg (fun k => k.2.1) (plain (.inr ⟨hold, other⟩))
    · exact congrArg (fun k => k.2.2.1) (plain (.inl vent))
  · intro b next leaked
    exact ⟨settle_zero chain, settle_reads chain, settle_plain chain⟩
  · intro d b following passes enters
    have entering (x : Block) (e : Controller) (begun : d = e.entered n x) (index : Nat)
        (context : ∃ start, e.jacket n = { c.jacket n with
            state := (e.jacket n).state, currentBlock := index, elapsed := (e.jacket n).elapsed, acc := (e.jacket n).acc,
            recordsCompleted := (e.jacket n).recordsCompleted, lastMeans := (e.jacket n).lastMeans, settleStart := start } ∧
          (start = if passes b then none else (c.jacket n).settleStart))
        (spec : e.servedSpec n = c.servedSpec n) (ring : e.ring = c.ring) (records : e.records = c.records) : enters index x := by
      obtain ⟨start, context, start_eq⟩ := context
      obtain ⟨vents, ramps⟩ := entered_commands e n x
      rw [← begun] at vents ramps
      rw [spec] at ramps
      refine ⟨?_, vents, ramps, fun vent ramp => ?_⟩
      · have settles : x.kind.settleStart start = if x.kind = .zero ∨ x.kind = .hold then some 0
            else if passes b ∨ x.kind ≠ .ramp then none else (c.jacket n).settleStart := by
          rw [settleStart_eq, start_eq]
          by_cases goes : passes b <;> simp [goes]
        rw [← settles]
        refine (by rw [begun]; exact entered_jacket e n x : d.jacket n = { (e.jacket n).beginBlock x with
          owedCommand := (d.jacket n).owedCommand }).trans ?_
        rw [Jacket.beginBlock, context]
      · obtain ⟨owed, same, kept⟩ := entered_quiet (c := e) (n := n) vent ramp
        rw [← begun] at owed same kept
        refine ⟨owed.trans ?_, same.trans ring, kept.trans records⟩
        rw [context]
    refine ⟨fun stops => ?_, fun goes stops => ?_⟩
    · exact entering b c (enterBlock_stops stops) _ ⟨_, rfl, (if_neg stops).symm⟩ rfl rfl rfl
    · refine entering following _ (enterBlock_passes goes stops) _ ⟨none, ?_, (if_pos goes).symm⟩ (servedSpec_updJacket rfl) rfl rfl
      rw [jacket_updJacket, if_pos rfl, Jacket.beginBlock, goes.1]
      rfl
  · intro z
    rw [settle_last vent last]
    refine congrArg (fun d : Controller => d.evaluate n) (updJacket_congr ?_)
    have same : firstOf (c.jacket n).zero = z := by
      show _ = (match (c.jacket n).zero with | some reading => reading.first | none => 0)
      cases (c.jacket n).zero <;> rfl
    rw [same]

end Sys2Proof.Machine
end

section
/-! SUPPORT. Program starts, unloads and the end of a recovery (O26, R97, R112). -/
namespace Sys2Proof.Machine

variable {c d : Controller} {n m : JacketNo} {r : Record}

/-! ### Program starts (R97) -/

theorem servedSlot_eq {slot : Nat} (serves : (c.jacket n).slot = some slot) : c.servedSlot n = slot := by
  rw [Controller.servedSlot, serves]
  rfl

theorem countAttempt_record (serves : (c.jacket n).slot = some r.slot) (here : c.recordAt r.slot = some r) :
    (c.countAttempt n).recordAt r.slot = some { r with attempts := min 255 (r.attempts + 1) } := by
  rw [Controller.countAttempt, servedSlot_eq serves,
    recordAt_updRecord _ _ (fun r => { r with attempts := min 255 (r.attempts + 1) }) fun _ => rfl, here]
  rfl

/-- A program that begins with a ZERO block. -/
theorem startProgram_zero (zero : (c.tables.blockAt (c.jacket n).programStart).kind = .zero) :
    c.startProgram n = (c.countAttempt n).updJacket n fun j => j.beginProgram.beginBlock (c.tables.blockAt (c.jacket n).programStart) := by
  have block : ((c.countAttempt n).updJacket n Jacket.beginProgram).currentBlock n = c.tables.blockAt (c.jacket n).programStart :=
    currentBlock_updJacket
  rw [Controller.startProgram, enterBlock_begins (by rw [block]; exact zero) (.inl rfl), block, updJacket_updJacket]

theorem startProgram_jacket (zero : (c.tables.blockAt (c.jacket n).programStart).kind = .zero) :
    ((c.startProgram n).jacket n).state = .running .zero ∧ ((c.startProgram n).jacket n).currentBlock = (c.jacket n).programStart ∧
      ((c.startProgram n).jacket n).restartPending = false ∧ ((c.startProgram n).jacket n).loaded = (c.jacket n).loaded ∧
      ((c.startProgram n).jacket n).awaited = (c.jacket n).awaited ∧ ((c.startProgram n).jacket n).slot = (c.jacket n).slot := by
  rw [startProgram_zero zero, jacket_updJacket, if_pos rfl]
  exact ⟨congrArg JacketState.running zero, rfl, rfl, rfl, rfl, rfl⟩

theorem startProgram_record (zero : (c.tables.blockAt (c.jacket n).programStart).kind = .zero)
    (serves : (c.jacket n).slot = some r.slot) (here : c.recordAt r.slot = some r) :
    (c.startProgram n).recordAt r.slot = some { r with attempts := min 255 (r.attempts + 1) } := by
  rw [startProgram_zero zero]
  exact countAttempt_record serves here

/-! ### Unloads (R112, R113) -/

theorem unload_commanded (c : Controller) (n : JacketNo) (next : OnClear) : (c.unload n next).Commanded n .unload :=
  offerCommand_commanded _ n _

theorem unload_jacket (c : Controller) (n : JacketNo) (next : OnClear) :
    ((c.unload n next).jacket n).state = .unloading ∧ ((c.unload n next).jacket n).onClear = some next := by
  let d := (c.updRecord (c.servedSlot n) fun r => { r with state := .unloading }).updJacket n
    fun j => { j with state := .unloading, onClear := some next }
  have same : (d.offerCommand n .unload).jacket n = _ := offerCommand_sameButOwed d n .unload n
  have put : d.jacket n = { c.jacket n with state := .unloading, onClear := some next } := (jacket_updJacket _ _ _ _).trans (if_pos rfl)
  show ((d.offerCommand n .unload).jacket n).state = _ ∧ ((d.offerCommand n .unload).jacket n).onClear = _
  rw [same, put]
  exact ⟨rfl, rfl⟩

theorem unload_record (serves : (c.jacket n).slot = some r.slot) (here : c.recordAt r.slot = some r) (next : OnClear) :
    (c.unload n next).recordAt r.slot = some { r with state := .unloading } := by
  let put := c.updRecord (c.servedSlot n) fun r => { r with state := .unloading }
  obtain ⟨-, records, -⟩ := offerCommand_same (put.updJacket n fun j => { j with state := .unloading, onClear := some next }) n .unload
  have same : (c.unload n next).recordAt r.slot = put.recordAt r.slot := congrArg (fun l => l.find? fun r' => r'.slot == r.slot) records
  rw [same]
  show (c.updRecord (c.servedSlot n) fun r => { r with state := .unloading }).recordAt r.slot = _
  rw [servedSlot_eq serves, recordAt_updRecord _ _ (fun r => { r with state := .unloading }) fun _ => rfl, here]
  rfl

/-! ### The first low sample (R112) -/

/-- Settles O26: what ends the recovery, by its reason. -/
theorem lowSampleEndsRecovery : Obligations.LowSampleEndsRecovery := by
  intro s h p x n size hears role read low
  have run {reason : RecoverReason} (recovering : (s.part.jacket n).state = .recovering reason) :
      exec (.jacketSample h p) s = .next (s.withPart ((s.part.sampled h p n).endRecovery n reason)) := by
    rw [exec_jacketSample hears role read, takeSample_low (c := s.part.placeForward _) recovering low]
    rfl
  obtain ⟨same, -, -⟩ := sampled_same s.part h p n
  have tables : (s.part.sampled h p n).tables = s.part.tables := rfl
  have queue : (s.part.sampled h p n).ring.queue = s.part.ring.queue := rfl
  have record (slot : Nat) : (s.part.sampled h p n).recordAt slot = s.part.recordAt slot := rfl
  refine ⟨fun recovering fresh => ⟨_, run recovering, ?_⟩, fun recovering => ⟨_, run recovering, ?_⟩, fun recovering => run recovering,
    fun r _ recovering pending serves here zero => ⟨_, run recovering, ?_⟩, fun r _ recovering serves here => ⟨_, run recovering, ?_⟩⟩
  all_goals clear run
  all_goals generalize s.part.sampled h p n = c at same tables queue record ⊢
  · have ends : c.endRecovery n .hold = c.updJacket n fun j => { j with state := .heldVented } := if_neg (by rw [same, fresh]; decide)
    rw [ends, jacket_updJacket, if_pos rfl, same]
    exact ⟨rfl, queue⟩
  · show (c.updJacket n (Jacket.emptied .disabled)).jacket n = _
    rw [jacket_updJacket, if_pos rfl, same, Jacket.emptied]
  · have ends : c.endRecovery n .hold = c.startProgram n := if_pos (by rw [same]; exact pending)
    have start : (c.tables.blockAt (c.jacket n).programStart).kind = .zero := by
      rw [same, tables]
      exact zero
    obtain ⟨state, block, restart, -⟩ := startProgram_jacket start
    rw [ends]
    exact ⟨state, block.trans (by rw [same]), restart, startProgram_record start (by rw [same]; exact serves) ((record _).trans here)⟩
  · obtain ⟨state, next⟩ := unload_jacket c n .requeue
    exact ⟨state, next, unload_commanded c n _, unload_record (by rw [same]; exact serves) ((record _).trans here) _⟩

end Sys2Proof.Machine
end

section
/-! SUPPORT. Reports that stand: what no arbitration and no withdrawal takes back (R178, R179). -/
namespace Sys2Proof.Machine

variable {c d e : Controller} {n m : JacketNo}

/-! ### Reports kept (R178, R179) -/

/-- Every report stands but those of INFEED_HELD, which the mark makes afresh, and of LINE_STOPPED, which the end of a drain makes. -/
def KeepsReports (c d : Controller) : Prop :=
  ∀ cls subject cause, cls ≠ .infeedHeld → cls ≠ .lineStopped → c.Reported cls subject cause → d.Reported cls subject cause

theorem KeepsReports.refl : KeepsReports c c := fun _ _ _ _ _ made => made

theorem KeepsReports.trans (h : KeepsReports c d) (k : KeepsReports d e) : KeepsReports c e :=
  fun cls subject cause other apart made => k cls subject cause other apart (h cls subject cause other apart made)

theorem KeepsReports.of_same (queue : d.ring.queue = c.ring.queue) (notices : d.notices = c.notices) : KeepsReports c d := by
  intro cls subject cause _ _ made
  rw [Controller.Reported, Controller.notice, queue, notices]
  exact made

theorem Adds.keepsReports (h : Adds c d) : KeepsReports c d := fun _ _ _ other _ => h.reported other

theorem offerNotice_keepsReports (c : Controller) (k : NoticeClass) : KeepsReports c (c.offerNotice k) :=
  fun _ _ _ other _ => offerNotice_reported k other

theorem foldl_keepsReports {α : Type} {f : Controller → α → Controller} (step : ∀ c a, KeepsReports c (f c a)) (l : List α) (c : Controller) :
    KeepsReports c (l.foldl f c) :=
  foldl_keep (p := KeepsReports c) (fun x a h => h.trans (step x a)) l c .refl

theorem offerCommand_adds (c : Controller) (n : JacketNo) (k : Command) : Adds c (c.offerCommand n k) := by
  unfold Controller.offerCommand
  split
  · refine .trans ?_ (judge_adds false _)
    exact (enqueue_adds c (.command n k) (.jacket n)).trans (.of_same rfl rfl)
  · exact .of_same rfl rfl

theorem offerOwedCommand_adds (vent : Bool) (c : Controller) (n : JacketNo) : Adds c (c.offerOwedCommand vent n) := by
  rcases offerOwedCommand_cases c vent n with ⟨same, -⟩ | ⟨k, -, -, made⟩
  · rw [same]
    exact .refl
  · rw [made]
    exact offerCommand_adds c n k

/-- A test no NOTICE satisfies. -/
def Spares (p : QueueEntry → Bool) : Prop := ∀ e, p e = true → ∀ cls count subject cause, e.body ≠ .notice cls count subject cause

theorem isOrderOf_spares (slot : Nat) : Spares (QueueEntry.isOrderOf slot) := by
  intro e order cls count subject cause body
  have isOrder := ((isOrderOf_iff e).mp order).2
  rw [body] at isOrder
  cases isOrder

theorem isCommandOf_spares (n : JacketNo) (p : Command → Bool) : Spares (QueueEntry.isCommandOf n p) := by
  intro e command cls count subject cause body
  rw [QueueEntry.isCommandOf, body, Bool.and_false] at command
  cases command

theorem erase_keepsReports {p : QueueEntry → Bool} (spares : Spares p) (c : Controller) :
    KeepsReports c (c.setQueue (c.ring.queue.eraseP p)) := by
  rintro cls subject cause - - (pending | ⟨e, member, count, body⟩)
  · exact .inl pending
  · refine .inr ⟨e, (List.mem_eraseP_of_neg fun chosen => ?_).mpr member, count, body⟩
    exact spares e chosen _ _ _ _ body

section Arbitration
variable {arb : Controller → Controller} (keeps : ∀ c, KeepsReports c (arb c))
include keeps

theorem withdrawWith_keepsReports {p : QueueEntry → Bool} (spares : Spares p) (c : Controller) :
    KeepsReports c (Controller.withdrawWith arb p c) := by
  suffices ∀ fuel d, KeepsReports c d → KeepsReports c (Controller.withdrawLoop arb p fuel d) from this _ c .refl
  intro fuel
  induction fuel with
  | zero => exact fun _ h => h
  | succ fuel ih =>
    intro d h
    unfold Controller.withdrawLoop
    split
    · exact ih _ (((h.trans (erase_keepsReports spares d)).trans (judge_adds true _).keepsReports).trans (keeps _))
    · exact h

omit keeps in
theorem finishDrain_keepsReports (c : Controller) : KeepsReports c c.finishDrain := by
  unfold Controller.finishDrain
  split
  · refine .trans ?_ (judge_adds false _).keepsReports
    exact fun cls subject cause other apart made => raise_reportStands (c := c.setLineState .stopped) other apart made _ _
  · exact .refl

omit keeps in
theorem dropRecord_keepsReports (c : Controller) (slot : Nat) : KeepsReports c (c.dropRecord slot) := by
  rintro cls subject cause - - (pending | ⟨e, member, count, body⟩)
  · exact .inl pending
  · refine .inr ⟨_, List.mem_map_of_mem member, count, ?_⟩
    rw [QueueEntry.disownResult]
    split
    · exact body
    · exact body

theorem removeWith_keepsReports (slot : Nat) (c : Controller) : KeepsReports c (Controller.removeWith arb slot c) :=
  ((dropRecord_keepsReports c slot).trans (withdrawWith_keepsReports keeps (isOrderOf_spares slot) (c.dropRecord slot))).trans
    ((judge_adds false _).keepsReports.trans (finishDrain_keepsReports _))

theorem offerRecordWith_keepsReports (c : Controller) (slot : Nat) : KeepsReports c (Controller.offerRecordWith arb c slot) := by
  unfold Controller.offerRecordWith
  split
  · exact .refl
  · next r here =>
    split
    · split
      · exact .refl
      · next l last =>
        split
        · refine (putResult_adds c slot r.serial l).keepsReports.trans ?_
          dsimp only
          split
          · exact removeWith_keepsReports keeps slot _
          · exact (offerOrders_adds _ _ _ _).keepsReports
        · exact .refl
    · exact (offerOrders_adds _ _ _ _).keepsReports

theorem arbitrateWith_keepsReports (c : Controller) : KeepsReports c (Controller.arbitrateWith arb c) := by
  have infeed (c : Controller) (o : InfeedOrder) : KeepsReports c (c.offerOwedInfeed o) :=
    fun _ _ _ other _ => (offerOwedInfeed_heldAlone c o).reported (offerOwedInfeed_onlyPlaces c o) other
  have reply (c : Controller) : KeepsReports c c.offerReply :=
    fun _ _ _ other _ => (offerReply_heldAlone c).reported (offerReply_onlyPlaces c) other
  have commands (vent : Bool) := foldl_keepsReports (fun c n => (offerOwedCommand_adds vent c n).keepsReports) jacketNumbers
  unfold Controller.arbitrateWith
  dsimp only
  refine .trans ?_ (foldl_keepsReports offerNotice_keepsReports noticeClasses _)
  refine .trans ?_ (reply _)
  refine .trans ?_ (infeed _ _)
  refine .trans ?_ (commands false _)
  refine .trans ?_ (foldl_keepsReports (offerRecordWith_keepsReports keeps) _ _)
  exact .trans (commands true _) (infeed _ _)

end Arbitration

theorem arbitrate_keepsReports (c : Controller) : KeepsReports c c.arbitrate := by
  suffices ∀ depth c, KeepsReports c (Controller.arbitrateDepth depth c) from this _ c
  intro depth
  induction depth with
  | zero => exact fun _ => .refl
  | succ depth ih => exact arbitrateWith_keepsReports ih

theorem withdraw_keepsReports {p : QueueEntry → Bool} (spares : Spares p) (c : Controller) : KeepsReports c (c.withdraw p) :=
  withdrawWith_keepsReports arbitrate_keepsReports spares c

theorem offerRecord_keepsReports (c : Controller) (slot : Nat) : KeepsReports c (c.offerRecord slot) :=
  offerRecordWith_keepsReports arbitrate_keepsReports c slot

theorem dropCommands_keepsReports (c : Controller) (n : JacketNo) (p : Command → Bool) : KeepsReports c (c.dropCommands n p) :=
  (KeepsReports.of_same (c := c) (d := c.updJacket n fun j => { j with owedCommand := j.owedCommand.filter fun k => !p k }) rfl rfl).trans
    (withdraw_keepsReports (isCommandOf_spares n p) _)

theorem makeVent_keepsReports (c : Controller) (n : JacketNo) : KeepsReports c (c.makeVent n) :=
  (offerCommand_adds c n .vent).keepsReports.trans (dropCommands_keepsReports _ n _)

end Sys2Proof.Machine
end

section
/-! SUPPORT. Faults of a jacket under pressure and the expiries of a jacket (O28, R95, R106, R108, R109, R112). -/
namespace Sys2Proof.Machine

variable {c d : Controller} {n m : JacketNo} {r : Record}

/-! ### A fault under pressure (R95) -/

/-- A record held for a cause. -/
def Record.HeldFor (cause : HeldCause) (x : Record) : Prop := x.state = .manualHeld ∧ x.heldCause = some cause

theorem heldFor_bare {cause : HeldCause} {r x : Record} (same : r.bare = x.bare) (held : r.HeldFor cause) : x.HeldFor cause := by
  rw [eq_of_bare same]
  exact held

theorem holdRecord_verification (c : Controller) (slot : Nat) (cause : HeldCause) : (c.holdRecord slot cause).verification = c.verification := by
  unfold Controller.holdRecord
  split
  · rfl
  · split
    · rfl
    · exact (cancelOrders_serves (c.updRecord slot fun r => { r with state := .manualHeld, heldCause := some cause }) slot).verification

theorem holdRecord_stands {cause : HeldCause} (distinct : c.SlotsDistinct) (here : c.recordAt r.slot = some r) (free : r.releasePending = false)
    (other : r.state ≠ .manualHeld) : Stands r.slot (Record.HeldFor cause) (c.holdRecord r.slot cause) := by
  have held_distinct : (c.updRecord r.slot fun r => { r with state := .manualHeld, heldCause := some cause }).SlotsDistinct := by
    rw [Controller.SlotsDistinct,
      map_updRecord c r.slot (fun r => { r with state := .manualHeld, heldCause := some cause }) Record.slot fun _ => rfl]
    exact distinct
  rw [holdRecord_eq here free other]
  refine (cancelOrders_serves _ r.slot).stands heldFor_bare
    ⟨held_distinct, { r with state := .manualHeld, heldCause := some cause }, ?_, free, rfl, rfl⟩
  · rw [recordAt_updRecord c r.slot (fun r => { r with state := .manualHeld, heldCause := some cause }) fun _ => rfl, here]
    rfl

/-- The part of a jacket's fault that follows the hold of its record: it serves none, vents, and reports (R95, steps 2 to 4). -/
def Controller.faulted (c : Controller) (n : JacketNo) (cause : FaultCause) : Controller :=
  (((c.updJacket n fun j => { j with slot := none }).makeVent n).dropStale n).raise .jacketFault n.val cause.code

theorem isFault_of_pressing {state : JacketState} (pressing : state.pressing = true) : state.isFault = false := by
  cases state with
  | fault cause => cases pressing
  | _ => rfl

theorem faultJacket_eq (pressing : (c.jacket n).state.pressing = true) (serves : (c.jacket n).slot = some r.slot)
    (here : c.recordAt r.slot = some r) (cause : FaultCause) :
    c.faultJacket n cause = ((((c.updJacket n fun j => { j with state := .fault cause }).holdRecord r.slot .jacketFault).raise
      .manualDivert r.serial 2).faulted n cause) := by
  have served : (c.updJacket n fun j => { j with state := .fault cause }).served n = some r := by
    rw [Controller.served, jacket_updJacket, if_pos rfl, serves]
    exact here
  unfold Controller.faultJacket Controller.holdServed
  dsimp only
  rw [if_neg (ne_true_of_eq_false (isFault_of_pressing pressing)), served, if_pos pressing]
  rfl

theorem faulted_serves (c : Controller) (n : JacketNo) (cause : FaultCause) :
    Serves (c.updJacket n fun j => { j with slot := none }) (c.faulted n cause) :=
  ((makeVent_serves _ n).trans (dropStale_serves _ n)).trans (raise_serves _ _ _ _)

theorem faulted_commanded (c : Controller) (n : JacketNo) (cause : FaultCause) : (c.faulted n cause).Commanded n .vent := by
  have vented := makeVent_commanded (c.updJacket n fun j => { j with slot := none }) n
  rw [Controller.faulted]
  generalize (c.updJacket n fun j => { j with slot := none }).makeVent n = d at vented
  exact (raise_onlyPlaces _ _ _ _).keepsCommand.commanded ((dropCommands_keepsCommand d (k := .vent) rfl).commanded vented)

theorem faulted_reports {cls : NoticeClass} {subject code : Nat} (other : cls ≠ .infeedHeld ∧ cls ≠ .lineStopped ∧ cls ≠ .jacketFault)
    (made : c.Reported cls subject code) (n : JacketNo) (cause : FaultCause) : (c.faulted n cause).Reported cls subject code := by
  have cleared : KeepsReports c (c.updJacket n fun j => { j with slot := none }) := .of_same rfl rfl
  refine raise_reportStands other.1 other.2.2 ?_ _ _
  exact ((cleared.trans (makeVent_keepsReports _ n)).trans (dropCommands_keepsReports _ n _)) _ _ _ other.1 other.2.1 made

/-- What a fault of a jacket under pressure leaves. -/
theorem faultJacket_holds (distinct : c.SlotsDistinct) (pressing : (c.jacket n).state.pressing = true)
    (serves : (c.jacket n).slot = some r.slot) (here : c.recordAt r.slot = some r) (free : r.releasePending = false)
    (other : r.state ≠ .manualHeld) (cause : FaultCause) :
    (c.faultJacket n cause).Commanded n .vent ∧ (c.faultJacket n cause).verification = c.verification ∧
      (c.faultJacket n cause).Reported .manualDivert r.serial 2 ∧
      ∃ r', (c.faultJacket n cause).recordAt r.slot = some r' ∧ r'.HeldFor .jacketFault := by
  have held : Stands r.slot (Record.HeldFor .jacketFault) ((c.updJacket n fun j => { j with state := .fault cause }).holdRecord r.slot .jacketFault) :=
    holdRecord_stands distinct here free other
  have verification := holdRecord_verification (c.updJacket n fun j => { j with state := .fault cause }) r.slot .jacketFault
  rw [faultJacket_eq pressing serves here]
  generalize (c.updJacket n fun j => { j with state := .fault cause }).holdRecord r.slot .jacketFault = h at held verification
  have raised := raise_serves h .manualDivert r.serial 2
  have reported := raise_reported h .manualDivert r.serial 2
  generalize h.raise .manualDivert r.serial 2 = h' at raised reported
  have cleared : Stands r.slot (Record.HeldFor .jacketFault) (h'.updJacket n fun j => { j with slot := none }) :=
    Stands.of_records (c := h') rfl (raised.stands heldFor_bare held)
  have still : Stands r.slot (Record.HeldFor .jacketFault) (h'.faulted n cause) := (faulted_serves h' n cause).stands heldFor_bare cleared
  obtain ⟨-, r', there, -, done⟩ := still
  exact ⟨faulted_commanded h' n cause, ((faulted_serves h' n cause).verification.trans raised.verification).trans verification,
    faulted_reports (by decide) reported n cause, r', there, done⟩

/-! ### The expiries (R106, R108, R109, R112) -/

theorem pressing_of_recovering {reason : RecoverReason} (recovering : (c.jacket n).state = .recovering reason) :
    (c.jacket n).state.pressing = true := by
  rw [recovering]
  rfl

theorem timeLimitReached_iff : c.timeLimitReached n = true ↔
    (c.jacket n).state.isRunning = true ∧ 2 ^ (c.currentBlock n).timeExp * 1000 ≤ (c.jacket n).elapsed := by
  rw [Controller.timeLimitReached, Bool.and_eq_true, decide_eq_true_iff]

theorem dwellReached_iff : c.dwellReached n = true ↔
    (c.jacket n).state = .running .dwell ∧ (c.currentBlock n).duration * 100 ≤ (c.jacket n).elapsed := by
  rw [Controller.dwellReached, Bool.and_eq_true, decide_eq_true_iff, beq_iff_eq]

theorem silent_iff : c.silent n = true ↔
    (c.jacket n).state.pressing = true ∧ c.line.items.sampleAgeLimit ≤ (c.jacket n).sampleAge := by
  rw [Controller.silent, Bool.and_eq_true, decide_eq_true_iff]

theorem ventLimitReached_iff : c.ventLimitReached n = true ↔
    (∃ reason, (c.jacket n).state = .recovering reason) ∧ 120000 ≤ (c.jacket n).elapsed := by
  rw [Controller.ventLimitReached]
  split
  · next reason recovering =>
    rw [decide_eq_true_iff]
    exact ⟨fun late => ⟨⟨reason, recovering⟩, late⟩, fun both => both.2⟩
  · next other => exact ⟨nofun, fun both => both.1.elim fun reason recovering => absurd recovering (other reason)⟩

/-- An expiry whose limit has been reached acts. -/
theorem expires {reached : Bool} (s : State) (acts : Controller) (yes : reached = true) :
    (.next (s.withPart (if reached then acts else s.part)) : Host.Outcome State Fault Refusal) = .next (s.withPart acts) := by
  rw [if_pos yes]

/-- Before its limit an expiry has no effect (log entry 4). -/
theorem expires_not {reached : Bool} (s : State) (acts : Controller) (no : ¬reached = true) :
    (.next (s.withPart (if reached then acts else s.part)) : Host.Outcome State Fault Refusal) = .next s := by
  rw [if_neg no]
  rfl

/-- A chain's block that a ZERO block follows completes. -/
theorem completeBlock_zero (chain : (c.currentBlock n).chain = true)
    (zero : (c.tables.blockAt ((c.jacket n).currentBlock + 1)).kind = .zero) :
    (c.completeBlock n).jacket n = { c.jacket n with
        state := .running .zero, currentBlock := (c.jacket n).currentBlock + 1, elapsed := 0, acc := .clear, recordsCompleted := 0,
        lastMeans := none, settleStart := some 0 } ∧ (c.completeBlock n).ring = c.ring := by
  have next : (c.updJacket n fun j => { j with currentBlock := j.currentBlock + 1 }).currentBlock n =
      c.tables.blockAt ((c.jacket n).currentBlock + 1) := currentBlock_updJacket
  rw [completeBlock_chains chain, enterBlock_begins (by rw [next]; exact zero) (.inl rfl), next]
  refine ⟨?_, rfl⟩
  rw [jacket_updJacket, if_pos rfl, jacket_updJacket, if_pos rfl, Jacket.beginBlock, zero]
  rfl

/-- Settles O28: each expiry acts when its limit has been reached, and only then. -/
theorem expiriesOfAJacket : Obligations.ExpiriesOfAJacket := by
  refine ⟨fun s n => ⟨fun k running late => ⟨_, expires s _ (timeLimitReached_iff.mpr ⟨by rw [running]; rfl, late⟩), ?_⟩,
      fun before => expires_not s _ fun reached => ?_⟩,
    fun s n => ⟨fun dwell late chain zero => ⟨_, expires s _ (dwellReached_iff.mpr ⟨dwell, late⟩), ?_⟩,
      fun before => expires_not s _ fun reached => ?_⟩, fun s n => ?_⟩
  · obtain ⟨owed, jacket⟩ := earlyEnd_jacket s.part n .timeout
    rw [jacket]
    exact ⟨rfl, rfl, rfl, rfl, earlyEnd_commanded s.part n .timeout⟩
  · obtain ⟨running, late⟩ := timeLimitReached_iff.mp reached
    exact before.elim (fun idle => by rw [running] at idle; cases idle) (Nat.not_lt.mpr late)
  · obtain ⟨jacket, ring⟩ := completeBlock_zero chain zero
    exact ⟨jacket, by rw [ring]⟩
  · obtain ⟨dwell, late⟩ := dwellReached_iff.mp reached
    exact before.elim (fun other => other dwell) (Nat.not_lt.mpr late)
  · intro faults
    have faulting (i : Instr) (cause : FaultCause) (pressing : (s.part.jacket n).state.pressing = true)
        (run : exec i s = .next (s.withPart (s.part.faultJacket n cause))) : faults i cause := by
      intro r sound serves here free other
      obtain ⟨owed, jacket⟩ := faultJacket_jacket (isFault_of_pressing pressing) cause
      obtain ⟨vent, verification, divert, r', there, held, heldCause⟩ :=
        faultJacket_holds sound.2.2.1 pressing serves here free other cause
      refine ⟨_, r', run, ?_, ?_, ?_, vent, there, held, heldCause, verification, divert, faultJacket_reported (isFault_of_pressing pressing) cause⟩
      all_goals rw [jacket]
    refine ⟨fun pressing late => faulting _ _ pressing (expires s _ (silent_iff.mpr ⟨pressing, late⟩)), fun before => ?_,
      fun reason recovering late => faulting _ _ (pressing_of_recovering recovering)
        (expires s _ (ventLimitReached_iff.mpr ⟨⟨reason, recovering⟩, late⟩)), fun before => ?_⟩
    · refine expires_not s _ fun reached => ?_
      obtain ⟨pressing, late⟩ := silent_iff.mp reached
      exact before.elim (fun idle => by rw [pressing] at idle; cases idle) (Nat.not_lt.mpr late)
    · refine expires_not s _ fun reached => ?_
      obtain ⟨⟨reason, recovering⟩, late⟩ := ventLimitReached_iff.mp reached
      exact before.elim (fun other => other reason recovering) (Nat.not_lt.mpr late)

end Sys2Proof.Machine
end

section
/-! SUPPORT. A TEST RESULT that has been made: it stands, owed or placed, through every arbitration and every program start (R121, R140). -/
namespace Sys2Proof.Machine

variable {c d : Controller} {n m : JacketNo} {r x y : Record} {l : LastResult}

/-! ### A TEST RESULT made (R140) -/

/-- The record stands, but for what it owes, and its TEST RESULT is owed or placed. -/
def ResultMade (y : Record) (l : LastResult) (c : Controller) : Prop :=
  ∃ x, c.recordAt y.slot = some x ∧ x.bare = y.bare ∧
    (x.resultOwed = true ∨ ∃ e ∈ c.ring.queue, e.owner = .record y.slot ∧ e.body = .testResult y.serial l)

/-- It suffices that the records are the same and that the results' frames stay. -/
theorem ResultMade.of_queue (records : d.records = c.records)
    (stays : ∀ e ∈ c.ring.queue, e.owner = .record y.slot → e.body = .testResult y.serial l → e ∈ d.ring.queue) (h : ResultMade y l c) :
    ResultMade y l d := by
  obtain ⟨x, here, same, made⟩ := h
  refine ⟨x, by rw [Controller.recordAt, records]; exact here, same, made.imp_right ?_⟩
  rintro ⟨e, member, owner, body⟩
  exact ⟨e, stays e member owner body, owner, body⟩

theorem OnlyPlaces.resultMade (only : OnlyPlaces c d) (h : ResultMade y l c) : ResultMade y l d :=
  h.of_queue only.records fun _ member _ _ => only.stays member

theorem ResultMade.updRecord {s : Nat} {f : Record → Record} (keeps : ∀ r, (f r).bare = r.bare)
    (owed : y.slot = s → ∀ r, r.resultOwed = true → (f r).resultOwed = true) (h : ResultMade y l c) : ResultMade y l (c.updRecord s f) := by
  have slots (r : Record) : (f r).slot = r.slot := (sameIdentity_of_bare (keeps r).symm).1
  obtain ⟨x, here, same, made⟩ := h
  by_cases own : y.slot = s
  · refine ⟨f x, ?_, (keeps x).trans same, made.imp (owed own x) id⟩
    rw [← own, recordAt_updRecord c y.slot f slots, here]
    rfl
  · exact ⟨x, (recordAt_updRecord_other c own slots).trans here, same, made⟩

section Result
variable (free : y.releasePending = false) (last : y.lastResult = some l)
include free last

theorem Micro.resultMade (step : Micro c d) (h : ResultMade y l c) : ResultMade y l d := by
  cases step with
  | places places => exact places.only.resultMade h
  | command n k owed room => exact ResultMade.of_queue (c := c) rfl (h := h) fun _ member _ _ => List.mem_append_left _ member
  | order s r o rest here owed room =>
    have left := h.updRecord (s := s) (f := fun r => { r with owedOrders := rest }) (fun _ => rfl) fun _ _ owed => owed
    exact ResultMade.of_queue (c := c.updRecord s fun r => { r with owedOrders := rest }) rfl (h := left)
      fun _ member _ _ => List.mem_append_left _ member
  | result s r l' here place =>
    obtain ⟨x, there, same, made⟩ := h
    by_cases own : y.slot = s
    · subst own
      obtain rfl : x = r := Option.some.inj (there.symm.trans here)
      have fields := eq_of_bare same.symm
      obtain rfl : l' = l := by
        rw [fields] at place
        exact Option.some.inj (place.symm.trans last)
      have serial : x.serial = y.serial := (sameIdentity_of_bare same.symm).2.1
      refine ⟨{ x with resultOwed := false }, ?_, same, .inr ⟨_, List.mem_append_right _ (List.mem_singleton_self _), rfl, by rw [serial]⟩⟩
      rw [recordAt_updRecord (c.enqueue (.testResult x.serial l') (.record y.slot)) y.slot (fun r => { r with resultOwed := false }) fun _ => rfl]
      show (c.recordAt y.slot).map _ = _
      rw [there]
      rfl
    · refine ⟨x, ?_, same, made.imp_right ?_⟩
      · exact (recordAt_updRecord_other (c.enqueue (.testResult r.serial l') (.record s)) own
          (f := fun r => { r with resultOwed := false }) fun _ => rfl).trans there
      · rintro ⟨e, member, owner, body⟩
        exact ⟨e, List.mem_append_left _ member, owner, body⟩
  | drop s r here pending =>
    obtain ⟨x, there, same, made⟩ := h
    have own : y.slot ≠ s := by
      rintro rfl
      obtain rfl : x = r := Option.some.inj (there.symm.trans here)
      rw [eq_of_bare same.symm] at pending
      exact Bool.false_ne_true (free.symm.trans pending)
    refine ⟨x, (dropRecord_other c own).trans there, same, made.imp_right ?_⟩
    rintro ⟨e, member, owner, body⟩
    refine ⟨e, List.mem_map.mpr ⟨e, member, if_neg ?_⟩, owner, body⟩
    rw [owner]
    exact fun mine => own (Owner.record.inj mine.1)
  | withdraw s gone =>
    refine ResultMade.of_queue (c := c) rfl (h := h) fun e member _ body => (List.mem_eraseP_of_neg ?_).mpr member
    rw [isOrderOf_false fun _ => by rw [body]; rfl]
    exact Bool.false_ne_true
  | drained stopping empty => exact ResultMade.of_queue (c := c) rfl (h := h) fun _ member _ _ => member

theorem arbitrate_resultMade (h : ResultMade y l c) : ResultMade y l c.arbitrate :=
  (arbitrate_runs c).keep (fun _ _ step => step.resultMade free last) h

theorem dropCommands_resultMade (n : JacketNo) (p : Command → Bool) (h : ResultMade y l c) : ResultMade y l (c.dropCommands n p) := by
  suffices ∀ fuel d, ResultMade y l d → ResultMade y l (Controller.withdrawLoop Controller.arbitrate (QueueEntry.isCommandOf n p) fuel d) from
    this _ _ (ResultMade.of_queue (c := c) rfl (fun _ member _ _ => member) h)
  intro fuel
  induction fuel with
  | zero => exact fun _ h => h
  | succ fuel ih =>
    intro d h
    unfold Controller.withdrawLoop
    split
    · refine ih _ (arbitrate_resultMade free last ((judge_onlyPlaces true _).resultMade
        (ResultMade.of_queue (c := d) rfl (h := h) fun e member owner _ => ?_)))
      refine (List.mem_eraseP_of_neg ?_).mpr member
      rw [QueueEntry.isCommandOf, owner]
      exact Bool.false_ne_true
    · exact h

omit free last in
theorem offerCommand_resultMade (n : JacketNo) (k : Command) (h : ResultMade y l c) : ResultMade y l (c.offerCommand n k) :=
  h.of_queue (offerCommand_same c n k).2.1 fun _ member _ _ => offerCommand_stays member n k

theorem makeVent_resultMade (n : JacketNo) (h : ResultMade y l c) : ResultMade y l (c.makeVent n) :=
  dropCommands_resultMade free last n _ (offerCommand_resultMade n .vent h)

end Result

/-! ### Program starts keep what their steps keep (R97, R98) -/

theorem enterBlock_keep {P : Controller → Prop} (context : ∀ c f, P c → P (c.updJacket n f)) (command : ∀ c k, P c → P (c.offerCommand n k))
    (vent : ∀ c, P c → P (c.makeVent n)) (h : P c) : P (c.enterBlock n) := by
  refine enterBlockDepth_keep (fun d hd => ?_) (fun d => context d _) 97 c h
  generalize d.currentBlock n = b
  by_cases ramp : b.kind = .ramp
  · rw [entered_ramp ramp]
    exact command _ _ (context d _ hd)
  · by_cases vents : b.kind = .vent
    · rw [entered_vent vents]
      exact vent _ (context d _ hd)
    · rw [entered_plain vents ramp]
      exact context d _ hd

theorem startProgram_keep {P : Controller → Prop} (context : ∀ c f, P c → P (c.updJacket n f)) (command : ∀ c k, P c → P (c.offerCommand n k))
    (vent : ∀ c, P c → P (c.makeVent n)) (counted : P (c.countAttempt n)) : P (c.startProgram n) :=
  enterBlock_keep context command vent (context _ _ counted)

theorem startProgram_resultMade (free : y.releasePending = false) (last : y.lastResult = some l) (h : ResultMade y l (c.countAttempt n)) :
    ResultMade y l (c.startProgram n) :=
  startProgram_keep (fun _ _ h => h.of_queue rfl fun _ member _ _ => member) (fun _ => offerCommand_resultMade n)
    (fun _ => makeVent_resultMade free last n) h

theorem startProgram_verification (c : Controller) (n : JacketNo) : (c.startProgram n).verification = c.verification :=
  startProgram_keep (P := fun d => d.verification = c.verification) (fun _ _ h => h)
    (fun _ k h => (offerCommand_serves _ n k).verification.trans h) (fun _ h => (makeVent_serves _ n).verification.trans h) rfl

end Sys2Proof.Machine
end

section
/-! SUPPORT. Evaluations (O31, R113, R121, R134 to R139, R147 to R150). -/
namespace Sys2Proof.Machine

variable {c d e : Controller} {n m : JacketNo} {r x y : Record} {l : LastResult} {date : Option Date}

/-! ### What an outcome does to a record and to the instruction (R134 to R138) -/

theorem decideInstruction_route {o : EvalOutcome} (judged : ∀ k, o ≠ .invalid k) (reference : Bool) (invalids count : Nat) :
    decideInstruction o reference invalids count = .unload .route := by
  cases o with
  | invalid k => exact absurd rfl (judged k)
  | pass => rfl
  | fail k => rfl
  | reference k => rfl

theorem decideInstruction_invalid (k : InvalidCause) (reference : Bool) (invalids count : Nat) :
    decideInstruction (.invalid k) reference invalids count =
      if reference = false ∧ invalids = 1 then if count < 3 then .retest else .unload .requeue else .unload .route := rfl

theorem takeOutcome_eq (r : Record) (o : EvalOutcome) : ∃ verdict invalids,
    r.takeOutcome o = { r with verdict, countedInvalids := invalids } := by
  cases o with
  | pass => exact ⟨_, _, rfl⟩
  | fail k => exact ⟨_, _, rfl⟩
  | reference k => exact ⟨_, _, rfl⟩
  | invalid k =>
    unfold Record.takeOutcome
    dsimp only
    split
    · exact ⟨_, _, rfl⟩
    · split
      · exact ⟨_, _, rfl⟩
      · exact ⟨_, _, rfl⟩

/-- Of the rest of a record an evaluation changes its counted invalids and its verdict. -/
theorem takeResult_eq (r : Record) (l : LastResult) (date : Option Date) : ∃ verdict invalids,
    r.takeResult l date = { r with verdict, countedInvalids := invalids, lastResult := some l, verdictDate := date } := by
  obtain ⟨verdict, invalids, made⟩ := takeOutcome_eq r l.outcome
  rw [Record.takeResult, made]
  exact ⟨verdict, invalids, rfl⟩

/-- The counted invalids and the verdict of a record are those its outcome gives. -/
theorem takeResult_outcome {o : EvalOutcome} (outcome : l.outcome = o) :
    (r.takeResult l date).verdict = (r.takeOutcome o).verdict ∧
      (r.takeResult l date).countedInvalids = (r.takeOutcome o).countedInvalids := by
  rw [← outcome]
  exact ⟨rfl, rfl⟩

theorem takeResult_judged {o : EvalOutcome} (outcome : l.outcome = o) :
    (o = .pass → (r.takeResult l date).verdict = some .pass ∧ (r.takeResult l date).countedInvalids = r.countedInvalids) ∧
    (∀ k, o = .fail k → (r.takeResult l date).verdict = some (.fail k.verdictCause) ∧
      (r.takeResult l date).countedInvalids = r.countedInvalids) ∧
    (∀ k, o = .reference k → (r.takeResult l date).verdict = some (.reference k) ∧
      (r.takeResult l date).countedInvalids = r.countedInvalids) := by
  refine ⟨?_, fun k => ?_, fun k => ?_⟩
  all_goals
    rintro rfl
    exact takeResult_outcome outcome

theorem takeResult_invalid {k : InvalidCause} (outcome : l.outcome = .invalid k) :
    (r.spec.isReference = true → (r.takeResult l date).verdict = some (.reference .outOfTolerance) ∧
      (r.takeResult l date).countedInvalids = r.countedInvalids) ∧
    (r.spec.isReference = false → r.countedInvalids = 0 → (r.takeResult l date).verdict = r.verdict ∧
      (r.takeResult l date).countedInvalids = 1) ∧
    (r.spec.isReference = false → r.countedInvalids = 1 → (r.takeResult l date).countedInvalids = 2 ∧
      (r.takeResult l date).verdict = some (if k = .leak then .fail .leak else .manual .secondInvalid)) := by
  obtain ⟨verdict, invalids⟩ := takeResult_outcome (r := r) (date := date) outcome
  rw [verdict, invalids]
  unfold Record.takeOutcome
  dsimp only
  refine ⟨fun reference => ?_, fun ordinary first => ?_, fun ordinary second => ?_⟩
  · rw [if_pos reference]
    exact ⟨rfl, rfl⟩
  · rw [if_neg (ne_true_of_eq_false ordinary), if_pos first]
    exact ⟨rfl, rfl⟩
  · rw [if_neg (ne_true_of_eq_false ordinary), if_neg (by rw [second]; decide)]
    refine ⟨rfl, congrArg some ?_⟩
    cases k <;> rfl

/-! ### The result made (R121, steps 1 to 5) -/

/-- The part once the result of a jacket's cylinder is formed, taken and offered. -/
def Controller.resulted (c : Controller) (n : JacketNo) (r : Record) : Controller :=
  ((c.updRecord r.slot fun x => x.takeResult (c.resultOf n r) c.line.date).verify n (c.resultOf n r).outcome).makeResult r.slot r.serial
    r.resultOwed

theorem verify_places (c : Controller) (n : JacketNo) (o : EvalOutcome) :
    OnlyPlaces (c.updVerif n fun v => v.take c.line.date o) (c.verify n o) := by
  unfold Controller.verify
  dsimp only
  split
  · exact raise_onlyPlaces _ _ _ _
  · exact .refl

theorem verify_verif (c : Controller) (n : JacketNo) (o : EvalOutcome) : (c.verify n o).verif n = (c.verif n).take c.line.date o := by
  rw [Controller.verif, (verify_places c n o).verification]
  exact (verif_updVerif _ _ _ _).trans (if_pos rfl)

theorem verify_reported (c : Controller) (n : JacketNo) :
    (c.verify n (.reference .outOfTolerance)).Reported .calibration n.val 11 := raise_reported _ _ _ _

theorem evaluate_eq (serves : (c.jacket n).slot = some r.slot) (here : c.recordAt r.slot = some r) :
    c.evaluate n = (c.resulted n r).carryOut n (decideInstruction (c.resultOf n r).outcome r.spec.isReference
      (r.takeResult (c.resultOf n r) c.line.date).countedInvalids ((c.verif n).take c.line.date (c.resultOf n r).outcome).count) := by
  have served : c.served n = some r := by
    rw [Controller.served, serves]
    exact here
  have verified := verify_verif (c.updRecord r.slot fun x => x.takeResult (c.resultOf n r) c.line.date) n (c.resultOf n r).outcome
  rw [Controller.evaluate, served]
  dsimp only
  rw [verified]
  rfl

/-- A result offered is owed, or placed. -/
theorem makeResult_made (here : c.recordAt y.slot = some y) (free : y.releasePending = false) (last : y.lastResult = some l) (owed : Bool) :
    ResultMade y l (c.makeResult y.slot y.serial owed) := by
  have raised : OnlyPlaces c (if owed then c.raise .undelivered y.serial 32 else c) := by
    split
    · exact raise_onlyPlaces _ _ _ _
    · exact .refl
  rw [Controller.makeResult]
  generalize (if owed then c.raise .undelivered y.serial 32 else c) = d at raised
  refine (offerRecord_runs _ y.slot).keep (fun _ _ step => step.resultMade free last) ⟨{ y with resultOwed := true }, ?_, rfl, .inl rfl⟩
  rw [recordAt_updRecord d y.slot (fun r => { r with resultOwed := true }) fun _ => rfl, raised.recordAt, here]
  rfl

theorem makeResult_reports {cls : NoticeClass} {subject cause : Nat} (other : cls ≠ .infeedHeld ∧ cls ≠ .lineStopped ∧ cls ≠ .undelivered)
    (made : c.Reported cls subject cause) (slot : Nat) (serial : Serial) (owed : Bool) :
    (c.makeResult slot serial owed).Reported cls subject cause := by
  have raised : (if owed then c.raise .undelivered serial 32 else c).Reported cls subject cause := by
    split
    · exact raise_reportStands other.1 other.2.2 made _ _
    · exact made
  rw [Controller.makeResult]
  generalize (if owed then c.raise .undelivered serial 32 else c) = d at raised
  exact ((updRecord_adds d slot _).keepsReports.trans (offerRecord_keepsReports _ slot)) _ _ _ other.1 other.2.1 raised

section Resulted
variable (here : c.recordAt r.slot = some r) (free : r.releasePending = false)
include here free

/-- The record of a jacket whose result is formed, before the result is offered. -/
theorem taken_record (l : LastResult) (o : EvalOutcome) :
    ((c.updRecord r.slot fun x => x.takeResult l c.line.date).verify n o).recordAt r.slot = some (r.takeResult l c.line.date) ∧
      (r.takeResult l c.line.date).slot = r.slot ∧ (r.takeResult l c.line.date).serial = r.serial ∧
      (r.takeResult l c.line.date).releasePending = false ∧ (r.takeResult l c.line.date).lastResult = some l ∧
      (r.takeResult l c.line.date).verdictDate = c.line.date ∧ (r.takeResult l c.line.date).state = r.state ∧
      (r.takeResult l c.line.date).attempts = r.attempts := by
  constructor
  · refine ((verify_places _ n o).recordAt r.slot).trans ?_
    show (c.updRecord r.slot fun x => x.takeResult l c.line.date).recordAt r.slot = _
    rw [recordAt_updRecord c r.slot (fun x => x.takeResult l c.line.date) fun x => (takeResult_sameIdentity x _ _).1, here]
    rfl
  · obtain ⟨verdict, invalids, made⟩ := takeResult_eq r l c.line.date
    rw [made]
    exact ⟨rfl, rfl, free, rfl, rfl, rfl, rfl⟩

theorem resulted_made : ResultMade (r.takeResult (c.resultOf n r) c.line.date) (c.resultOf n r) (c.resulted n r) := by
  obtain ⟨there, slot, serial, pending, last, -⟩ := taken_record (n := n) here free (c.resultOf n r) (c.resultOf n r).outcome
  rw [Controller.resulted, ← slot, ← serial]
  rw [← slot] at there
  exact makeResult_made there pending last _

theorem resulted_keeps (distinct : c.SlotsDistinct) (n : JacketNo) :
    (c.resulted n r).verif n = (c.verif n).take c.line.date (c.resultOf n r).outcome ∧ (c.resulted n r).line = c.line ∧
      (c.resulted n r).tables = c.tables ∧ ∃ owed, (c.resulted n r).jacket n = { c.jacket n with owedCommand := owed } := by
  obtain ⟨there, -, -, pending, -⟩ := taken_record (n := n) here free (c.resultOf n r) (c.resultOf n r).outcome
  have placed := verify_places (c.updRecord r.slot fun x => x.takeResult (c.resultOf n r) c.line.date) n (c.resultOf n r).outcome
  have verif := verify_verif (c.updRecord r.slot fun x => x.takeResult (c.resultOf n r) c.line.date) n (c.resultOf n r).outcome
  have apart : ((c.updRecord r.slot fun x => x.takeResult (c.resultOf n r) c.line.date).verify n (c.resultOf n r).outcome).SlotsDistinct := by
    rw [Controller.SlotsDistinct, placed.records]
    show ((c.updRecord r.slot fun x => x.takeResult (c.resultOf n r) c.line.date).records.map Record.slot).Nodup
    rw [map_updRecord c r.slot (fun x => x.takeResult (c.resultOf n r) c.line.date) Record.slot fun x => (takeResult_sameIdentity x _ _).1]
    exact distinct
  rw [Controller.resulted]
  generalize (c.updRecord r.slot fun x => x.takeResult (c.resultOf n r) c.line.date).verify n (c.resultOf n r).outcome = v at *
  have serves := makeResult_serves v r.slot r.serial r.resultOwed
  refine ⟨?_, (serves.line_of_kept apart there pending).trans placed.line, serves.tables.trans placed.tables, _,
    (serves.jackets n).trans (by rw [placed.jacket n]; rfl)⟩
  rw [Controller.verif, serves.verification]
  exact verif

end Resulted

theorem resulted_reported (out : (c.resultOf n r).outcome = .reference .outOfTolerance) :
    (c.resulted n r).Reported .calibration n.val 11 := by
  rw [Controller.resulted, out]
  exact makeResult_reports (by decide) (verify_reported _ n) _ _ _

/-! ### What follows the evaluation (R113) -/

/-- A change of the record of a result made. -/
theorem ResultMade.change {f : Record → Record} (bare : ∀ r, (f r).bare = f r.bare)
    (keeps : ∀ r, (f r).slot = r.slot ∧ (f r).serial = r.serial ∧ (f r).resultOwed = r.resultOwed) (h : ResultMade y l c) :
    ResultMade (f y) l (c.updRecord y.slot f) := by
  obtain ⟨x, here, same, made⟩ := h
  obtain ⟨slot, serial, -⟩ := keeps y
  refine ⟨f x, ?_, ?_, ?_⟩
  · rw [slot, recordAt_updRecord c y.slot f fun r => (keeps r).1, here]
    rfl
  · rw [bare, same, bare]
  · rw [(keeps x).2.2, slot, serial]
    exact made

/-- What the instruction of an evaluation leaves of a record and of the jacket that serves it. -/
structure CarriedOut (e : Controller) (n : JacketNo) (y : Record) (l : LastResult) (i : Instruction) (s : RecordState) (a : Nat) : Prop where
  made : ResultMade { y with state := s, attempts := a } l (e.carryOut n i)
  verification : (e.carryOut n i).verification = e.verification
  unloads : ∀ next, i = .unload next → s = .unloading ∧ a = y.attempts ∧ ((e.carryOut n i).jacket n).state = .unloading ∧
    ((e.carryOut n i).jacket n).onClear = some next ∧ (e.carryOut n i).Commanded n .unload
  retests : i = .retest → e.lineMoving = true → s = y.state ∧ a = min 255 (y.attempts + 1) ∧ e.carryOut n i = e.startProgram n
  rests : i = .retest → e.lineMoving = false → s = y.state ∧ a = y.attempts ∧ ((e.carryOut n i).jacket n).state = .heldVented ∧
    ((e.carryOut n i).jacket n).slot = (e.jacket n).slot

section CarryOut
variable (made : ResultMade y l e) (serves : (e.jacket n).slot = some y.slot)
include made serves

theorem carryOut_unloads (next : OnClear) : CarriedOut e n y l (.unload next) .unloading y.attempts where
  made := by
    show ResultMade _ l (e.unload n next)
    have left := made.change (f := fun r => { r with state := .unloading }) (fun _ => rfl) fun _ => ⟨rfl, rfl, rfl⟩
    rw [Controller.unload, servedSlot_eq serves]
    exact offerCommand_resultMade n .unload (ResultMade.of_queue (c := e.updRecord y.slot fun r => { r with state := .unloading }) rfl
      (fun _ member _ _ => member) left)
  verification := (offerCommand_serves _ n .unload).verification
  unloads := by
    rintro _ ⟨⟩
    obtain ⟨state, onClear⟩ := unload_jacket e n next
    exact ⟨rfl, rfl, state, onClear, unload_commanded e n next⟩
  retests := nofun
  rests := nofun

theorem carryOut_retests (free : y.releasePending = false) (last : y.lastResult = some l) (moving : e.lineMoving = true) :
    CarriedOut e n y l .retest y.state (min 255 (y.attempts + 1)) := by
  have starts : e.carryOut n .retest = e.startProgram n := if_pos moving
  refine ⟨?_, ?_, nofun, fun _ _ => ⟨rfl, rfl, starts⟩, fun _ still => absurd moving (ne_true_of_eq_false still)⟩
  · have left := made.change (f := fun r => { r with attempts := min 255 (r.attempts + 1) }) (fun _ => rfl) fun _ => ⟨rfl, rfl, rfl⟩
    rw [starts]
    refine startProgram_resultMade (y := { y with attempts := min 255 (y.attempts + 1) }) free last ?_
    rw [Controller.countAttempt, servedSlot_eq serves]
    exact left
  · rw [starts]
    exact startProgram_verification e n

omit serves in
theorem carryOut_rests (still : e.lineMoving = false) : CarriedOut e n y l .retest y.state y.attempts := by
  have waits : e.carryOut n .retest = e.updJacket n fun j => { j with state := .heldVented } := if_neg (ne_true_of_eq_false still)
  refine ⟨?_, ?_, nofun, fun _ moving => absurd moving (ne_true_of_eq_false still), fun _ _ => ⟨rfl, rfl, ?_⟩⟩
  · rw [waits]
    exact ResultMade.of_queue (c := e) rfl (h := made) fun _ member _ _ => member
  · rw [waits]
    rfl
  · rw [waits, jacket_updJacket, if_pos rfl]
    exact ⟨rfl, rfl⟩

theorem carryOut_carries (free : y.releasePending = false) (last : y.lastResult = some l) (i : Instruction) :
    ∃ s a, CarriedOut e n y l i s a := by
  cases i with
  | unload next => exact ⟨_, _, carryOut_unloads made serves next⟩
  | retest =>
    cases moving : e.lineMoving with
    | true => exact ⟨_, _, carryOut_retests made serves free last moving⟩
    | false => exact ⟨_, _, carryOut_rests made moving⟩

end CarryOut

theorem unload_adds (c : Controller) (n : JacketNo) (next : OnClear) : Adds c (c.unload n next) := by
  refine .trans ?_ (offerCommand_adds _ n .unload)
  exact .of_same rfl rfl

end Sys2Proof.Machine
end

section
/-! SUPPORT. What an evaluation does to the record and to the jacket that serves it (O31). -/
namespace Sys2Proof.Machine

variable {c d e : Controller} {n : JacketNo} {r x y : Record} {l : LastResult}

/-- The instruction of an evaluation, from what the evaluation has left (R137). -/
def Controller.instruction (c : Controller) (n : JacketNo) (r : Record) : Instruction :=
  decideInstruction (c.resultOf n r).outcome r.spec.isReference (r.takeResult (c.resultOf n r) c.line.date).countedInvalids
    ((c.verif n).take c.line.date (c.resultOf n r).outcome).count

section Evaluation
variable (distinct : c.SlotsDistinct) (serves : (c.jacket n).slot = some r.slot) (here : c.recordAt r.slot = some r)
  (free : r.releasePending = false)
include distinct serves here free

/-- An evaluation makes the result, and then carries out its instruction. -/
theorem evaluate_carries : ∃ s a,
    CarriedOut (c.resulted n r) n (r.takeResult (c.resultOf n r) c.line.date) (c.resultOf n r) (c.instruction n r) s a := by
  obtain ⟨-, slot, -, pending, last, -⟩ := taken_record (n := n) here free (c.resultOf n r) (c.resultOf n r).outcome
  obtain ⟨-, -, -, owed, jacket⟩ := resulted_keeps here free distinct n
  exact carryOut_carries (resulted_made here free) (by rw [jacket, slot]; exact serves) pending last _

omit distinct in
/-- The record of an evaluation: its result, its verdict, and what the instruction has made of its state and of its attempts. -/
theorem evaluate_record {s : RecordState} {a : Nat}
    (carried : CarriedOut (c.resulted n r) n (r.takeResult (c.resultOf n r) c.line.date) (c.resultOf n r) (c.instruction n r) s a) :
    ∃ x, (c.evaluate n).recordAt r.slot = some x ∧ x.lastResult = some (c.resultOf n r) ∧ x.verdictDate = c.line.date ∧
      (x.resultOwed = true ∨ ∃ e ∈ (c.evaluate n).ring.queue, e.owner = .record r.slot ∧ e.body = .testResult r.serial (c.resultOf n r)) ∧
      x.verdict = (r.takeResult (c.resultOf n r) c.line.date).verdict ∧
      x.countedInvalids = (r.takeResult (c.resultOf n r) c.line.date).countedInvalids ∧ x.state = s ∧ x.attempts = a := by
  obtain ⟨-, slot, serial, -, last, date, -⟩ := taken_record (n := n) here free (c.resultOf n r) (c.resultOf n r).outcome
  obtain ⟨x, there, same, made⟩ := carried.made
  rw [evaluate_eq serves here]
  refine ⟨x, by rw [← slot]; exact there, ?_, ?_, ?_, ?_⟩
  · rw [eq_of_bare same.symm]
    exact last
  · rw [eq_of_bare same.symm]
    exact date
  · rw [← slot, ← serial]
    exact made
  · rw [eq_of_bare same.symm]
    exact ⟨rfl, rfl, rfl, rfl⟩

theorem evaluate_verif {s : RecordState} {a : Nat}
    (carried : CarriedOut (c.resulted n r) n (r.takeResult (c.resultOf n r) c.line.date) (c.resultOf n r) (c.instruction n r) s a) :
    (c.evaluate n).verif n = (c.verif n).take c.line.date (c.resultOf n r).outcome := by
  obtain ⟨verif, -⟩ := resulted_keeps here free distinct n
  rw [evaluate_eq serves here, Controller.verif]
  refine Eq.trans ?_ verif
  exact congrArg (fun v : Vector Verification 8 => v.get n) carried.verification

omit distinct free in
theorem evaluate_reported (out : (c.resultOf n r).outcome = .reference .outOfTolerance) : (c.evaluate n).Reported .calibration n.val 11 := by
  rw [evaluate_eq serves here, out]
  exact (unload_adds _ n .route).reported (by decide) (resulted_reported out)

/-- A retest on a line that moves starts the program afresh (R97, R113). -/
theorem retest_starts (zero : (c.tables.blockAt (c.jacket n).programStart).kind = .zero) :
    let t := (c.resulted n r).startProgram n
    (t.jacket n).state = .running .zero ∧ (t.jacket n).currentBlock = (c.jacket n).programStart ∧ (t.jacket n).zero = none ∧
      (t.jacket n).hold = none ∧ (t.jacket n).vent = none ∧ (t.jacket n).earlyEnd = none ∧ (t.jacket n).slot = some r.slot := by
  intro t
  obtain ⟨-, -, tables, owed, jacket⟩ := resulted_keeps here free distinct n
  have start : ((c.resulted n r).tables.blockAt ((c.resulted n r).jacket n).programStart).kind = .zero := by
    rw [tables, jacket]
    exact zero
  have made : t.jacket n = (((c.resulted n r).jacket n).beginProgram).beginBlock
      ((c.resulted n r).tables.blockAt ((c.resulted n r).jacket n).programStart) := by
    show ((c.resulted n r).startProgram n).jacket n = _
    rw [startProgram_zero start, jacket_updJacket, if_pos rfl]
    rfl
  rw [made, jacket]
  rw [jacket] at start
  exact ⟨congrArg JacketState.running start, rfl, rfl, rfl, rfl, rfl, serves⟩

end Evaluation

/-- What the instruction of an evaluation does (R113, R137), by the outcome. -/
theorem instruction_eq (c : Controller) (n : JacketNo) (r : Record) :
    ((∀ k, (c.resultOf n r).outcome ≠ .invalid k) → c.instruction n r = .unload .route) ∧
    ∀ k, (c.resultOf n r).outcome = .invalid k →
      (r.spec.isReference = true ∨ (r.spec.isReference = false ∧ r.countedInvalids = 1) → c.instruction n r = .unload .route) ∧
      (r.spec.isReference = false → r.countedInvalids = 0 →
        (2 ≤ (c.verif n).count → c.instruction n r = .unload .requeue) ∧ ((c.verif n).count < 2 → c.instruction n r = .retest)) := by
  refine ⟨fun judged => decideInstruction_route judged _ _ _, fun k invalid => ?_⟩
  obtain ⟨-, first, second⟩ := takeResult_invalid (r := r) (date := c.line.date) invalid
  have count : ((c.verif n).take c.line.date (.invalid k)).count = min 3 ((c.verif n).count + 1) := rfl
  rw [Controller.instruction, invalid, decideInstruction_invalid, count]
  refine ⟨?_, fun ordinary zero => ?_⟩
  · rintro (reference | ⟨ordinary, one⟩)
    · exact if_neg fun both => absurd reference (ne_true_of_eq_false both.1)
    · exact if_neg fun both => absurd ((second ordinary one).1.symm.trans both.2) (by decide)
  · rw [if_pos ⟨ordinary, (first ordinary zero).2⟩]
    exact ⟨fun many => if_neg (by omega), fun few => if_pos (by omega)⟩

theorem isReference_of_none (ordinary : r.spec.reference = none) : r.spec.isReference = false := by
  rw [TypeEntry.isReference, ordinary]
  rfl

theorem decideInstruction_cases : ∀ (reference : Bool) (invalids count : Nat),
    decideInstruction .pass reference invalids count = .unload .route ∧
    (∀ k, decideInstruction (.fail k) reference invalids count = .unload .route) ∧
    (∀ k, decideInstruction (.reference k) reference invalids count = .unload .route) ∧
    (∀ k, decideInstruction (.invalid k) true invalids count = .unload .route) ∧
    (∀ k, decideInstruction (.invalid k) false 2 count = .unload .route) ∧
    (∀ k, count < 3 → decideInstruction (.invalid k) false 1 count = .retest) ∧
    (∀ k, decideInstruction (.invalid k) false 1 3 = .unload .requeue) := by
  intro reference invalids count
  refine ⟨rfl, fun _ => rfl, fun _ => rfl, fun k => ?_, fun k => ?_, fun k few => ?_, fun _ => rfl⟩
  · rw [decideInstruction_invalid, if_neg fun both => Bool.false_ne_true both.1.symm]
  · rw [decideInstruction_invalid, if_neg fun both => absurd both.2 (by decide)]
  · rw [decideInstruction_invalid, if_pos ⟨rfl, rfl⟩, if_pos few]

/-- Settles O31: the record and the verification follow the outcome, the jacket the instruction. -/
theorem evaluationUpdates : Obligations.EvaluationUpdates := by
  refine ⟨decideInstruction_cases, fun c n r sound serves here free => ?_⟩
  have distinct := sound.2.2.1
  intro formed result d
  obtain ⟨s, a, carried⟩ := evaluate_carries distinct serves here free
  obtain ⟨x, there, last, date, made, verdict, invalids, state, attempts⟩ := evaluate_record serves here free carried
  have verif := evaluate_verif distinct serves here free carried
  have outcome : (c.resultOf n r).outcome = formed.1 := rfl
  obtain ⟨-, -, -, -, -, -, before, tried⟩ := taken_record (n := n) here free (c.resultOf n r) formed.1
  obtain ⟨line, invalidLine⟩ := instruction_eq c n r
  have step : d = (c.resulted n r).carryOut n (c.instruction n r) := evaluate_eq serves here
  obtain ⟨-, sameLine, -, owed, jacket⟩ := resulted_keeps here free distinct n
  have unloads {next : OnClear} (i : c.instruction n r = .unload next) : x.state = .unloading ∧ x.attempts = r.attempts ∧
      (d.jacket n).state = .unloading ∧ (d.jacket n).onClear = some next ∧ d.Commanded n .unload := by
    obtain ⟨s_eq, a_eq, rest⟩ := carried.unloads next i
    rw [step]
    exact ⟨state.trans s_eq, (attempts.trans a_eq).trans tried, rest⟩
  rw [outcome] at verif
  refine ⟨x, there, last, date, made, fun pass => ?_, fun k fail => ?_, fun inside => ?_, fun out => ?_, fun k invalid => ?_,
    fun judged => unloads (line judged), fun k invalid => ⟨fun why => unloads ((invalidLine k invalid).1 ?_), fun ordinary first => ?_⟩⟩
  · obtain ⟨v, i⟩ := (takeResult_judged (r := r) (date := c.line.date) (outcome.trans pass)).1 rfl
    refine ⟨verdict.trans v, invalids.trans i, ?_⟩
    rw [verif, pass]
    rfl
  · obtain ⟨v, i⟩ := (takeResult_judged (r := r) (date := c.line.date) (outcome.trans fail)).2.1 k rfl
    refine ⟨verdict.trans v, invalids.trans i, ?_⟩
    rw [verif, fail]
    rfl
  · refine ⟨verdict.trans ((takeResult_judged (r := r) (date := c.line.date) (outcome.trans inside)).2.2 _ rfl).1, ?_⟩
    rw [verif, inside]
    rfl
  · refine ⟨verdict.trans ((takeResult_judged (r := r) (date := c.line.date) (outcome.trans out)).2.2 _ rfl).1, ?_,
      evaluate_reported serves here (outcome.trans out)⟩
    rw [verif, out]
    rfl
  · obtain ⟨reference, once, twice⟩ := takeResult_invalid (r := r) (date := c.line.date) (outcome.trans invalid)
    refine ⟨by rw [verif, invalid]; rfl, fun piece => ?_, fun ordinary first => ?_, fun ordinary second => ?_⟩
    · obtain ⟨v, i⟩ := reference ((isReference_iff _).mpr piece)
      exact ⟨verdict.trans v, invalids.trans i⟩
    · obtain ⟨v, i⟩ := once (isReference_of_none ordinary) first
      exact ⟨verdict.trans v, invalids.trans i⟩
    · obtain ⟨i, v⟩ := twice (isReference_of_none ordinary) second
      exact ⟨invalids.trans i, verdict.trans v⟩
  · cases reference : r.spec.isReference with
    | true => exact .inl rfl
    | false => exact .inr ⟨rfl, why.resolve_left fun piece => absurd ((isReference_iff _).mpr piece) (ne_true_of_eq_false reference)⟩
  · obtain ⟨requeues, retests⟩ := (invalidLine k invalid).2 (isReference_of_none ordinary) first
    refine ⟨fun many => unloads (requeues many), fun few moves zero => ?_, fun few holding => ?_⟩
    · have moving : (c.resulted n r).lineMoving = true := (lineMoving_iff _).mpr (by rw [sameLine]; exact moves)
      obtain ⟨s_eq, a_eq, starts⟩ := carried.retests (retests few) moving
      obtain ⟨running, block, z, h, v, early, slot⟩ := retest_starts distinct serves here free zero
      rw [step, starts]
      refine ⟨running, block, z, h, v, early, slot, (state.trans s_eq).trans before, (attempts.trans a_eq).trans ?_⟩
      rw [tried]
    · have still : (c.resulted n r).lineMoving = false := by
        rw [Controller.lineMoving, sameLine, holding]
        rfl
      obtain ⟨s_eq, a_eq, vented, slot⟩ := carried.rests (retests few) still
      rw [step]
      refine ⟨vented, slot.trans ?_, (state.trans s_eq).trans before, (attempts.trans a_eq).trans tried⟩
      rw [jacket]
      exact serves

end Sys2Proof.Machine
end

section
/-! SUPPORT. A cylinder unloaded (R114): the jacket, its UNLOAD and its record. -/
namespace Sys2Proof.Machine

variable {c d e : Controller} {n m : JacketNo} {r x y : Record}

/-! ### What a jacket pass leaves of a record that does not wait and of its own jacket (R80, R82) -/

theorem programFault_extends (distinct : c.SlotsDistinct) (member : x ∈ c.records) (free : x.releasePending = false) :
    c.ring.queue <+: (c.programFault x).ring.queue := by
  have diverted : Adds c (c.divert x.slot (.manual .program) .manual) :=
    (updRecord_adds c x.slot _).trans (makeOrders_adds (notPending_updRecord
      (fun r => { r with verdict := some (.manual .program), state := .leaving }) (fun _ => ⟨rfl, rfl⟩) (recordAt_free distinct member free)) _)
  exact diverted.queue.trans (raise_onlyPlaces _ _ _ _).queue

/-- A record that does not wait stands, with what it owes and what it has queued. -/
theorem jacketPass_stays (sound : c.RegisterSound) (member : y ∈ c.records) (still : y.state ≠ .waiting) (n : JacketNo) :
    (c.jacketPass n).RegisterSound ∧ y ∈ (c.jacketPass n).records ∧ c.ring.queue <+: (c.jacketPass n).ring.queue := by
  have apart {a : Controller} {x : Record} (h : a.RegisterSound ∧ y ∈ a.records ∧ c.ring.queue <+: a.ring.queue) (chosen : a.recordFor n = some x) :
      y.slot ≠ x.slot := fun same => by
    obtain ⟨there, waits, -⟩ := recordFor_waits chosen
    obtain rfl := List.inj_on_of_nodup_map h.1.2.2.1 h.2.1 there same
    exact still waits
  refine jacketPass_keep (P := fun a => a.RegisterSound ∧ y ∈ a.records ∧ c.ring.queue <+: a.ring.queue) (fun a x chosen h => ?_)
    (fun a x chosen h => ?_) ⟨sound, member, List.prefix_refl _⟩
  · obtain ⟨there, -, free, -⟩ := recordFor_waits chosen
    exact ⟨(assign_settles a x n).changes.registerSound h.1, assign_stays h.1.2.2.1 there free h.2.1 (apart h chosen),
      h.2.2.trans (assign_adds h.1.2.2.1 there free).queue⟩
  · obtain ⟨there, -, free, -⟩ := recordFor_waits chosen
    exact ⟨(programFault_settles a x).changes.registerSound h.1, programFault_stays h.1.2.2.1 there free h.2.1 (apart h chosen),
      h.2.2.trans (programFault_extends h.1.2.2.1 there free)⟩

theorem jacketPass_record (sound : c.RegisterSound) (here : c.recordAt y.slot = some y) (still : y.state ≠ .waiting) (n : JacketNo) :
    (c.jacketPass n).recordAt y.slot = some y ∧ ∀ serial o, c.Ordered y.slot serial o → (c.jacketPass n).Ordered y.slot serial o := by
  obtain ⟨after, member, queue⟩ := jacketPass_stays sound (recordAt_mem here) still n
  have there := recordAt_of_mem after.2.2.1 member
  refine ⟨there, fun serial o ordered => ordered.imp (fun ⟨e, placed, rest⟩ => ⟨e, queue.subset placed, rest⟩) ?_⟩
  rintro ⟨z, at_slot, owes⟩
  obtain rfl : y = z := Option.some.inj (here.symm.trans at_slot)
  exact ⟨y, there, owes⟩

/-- Its own pass leaves a jacket's loaded cylinder; one that is IDLE may come to AWAITING, and one in FAULT rests. -/
theorem jacketPass_own (sound : c.RegisterSound) (n : JacketNo) :
    ((c.jacketPass n).jacket n).loaded = (c.jacket n).loaded ∧
      ((c.jacket n).state = .idle → ((c.jacketPass n).jacket n).state = .idle ∨ ((c.jacketPass n).jacket n).state = .awaiting) ∧
      ((c.jacket n).state.isFault = true → (c.jacketPass n).jacket n = c.jacket n) := by
  refine (jacketPass_keep (P := fun a => a.RegisterSound ∧ (a.jacket n).loaded = (c.jacket n).loaded ∧
    ((c.jacket n).state = .idle → (a.jacket n).state = .idle ∨ (a.jacket n).state = .awaiting) ∧
      ((c.jacket n).state.isFault = true → a.jacket n = c.jacket n)) (fun a x chosen h => ?_) (fun a x chosen h => ?_)
    ⟨sound, rfl, .inl, fun _ => rfl⟩).2
  · obtain ⟨there, -, free, eligible⟩ := recordFor_waits chosen
    obtain ⟨idle, -⟩ := (eligible_iff a n x).mp eligible
    refine ⟨(assign_settles a x n).changes.registerSound h.1, ?_⟩
    rw [assign_jacket h.1.2.2.1 there free]
    refine ⟨h.2.1, fun _ => .inr rfl, fun fault => ?_⟩
    rw [h.2.2.2 fault] at idle
    rw [idle] at fault
    cases fault
  · obtain ⟨there, -, free, -⟩ := recordFor_waits chosen
    refine ⟨(programFault_settles a x).changes.registerSound h.1, ?_⟩
    rw [programFault_jacket h.1.2.2.1 there free]
    exact h.2

/-! ### No UNLOAD stands (R94, R114) -/

/-- No UNLOAD of a jacket stands: it owes none, and none is queued. -/
def Controller.NoUnload (c : Controller) (n : JacketNo) : Prop :=
  (c.jacket n).owedCommand ≠ some .unload ∧ ∀ e ∈ c.ring.queue, e.owner = .jacket n → e.body ≠ .command n .unload

theorem noUnload_of_rid {test : Command → Bool} (covers : test .unload = true)
    (rid : Rid (QueueEntry.isCommandOf n test) (OwesNo n test) c) : c.NoUnload n := by
  refine ⟨fun owed => ?_, fun e member owner body => ?_⟩
  · exact absurd covers (ne_true_of_eq_false (rid.1 _ owed))
  · exact absurd ((isCommandOf_iff n test e).mpr ⟨owner, n, .unload, body, covers⟩) (ne_true_of_eq_false (rid.none member))

/-! ### The jacket's end (R95, R114) -/

/-- What stands once a record is found: the line and the tables, the waiting queue and the jackets but for their owed commands. -/
theorem Serves.quiets (serves : Serves c d) (sound : c.RegisterSound) (here : c.recordAt r.slot = some r) (free : r.releasePending = false) :
    Quiets c d where
  jackets := serves.jackets
  waiting := serials_of_bare (serves.waiting sound.2.2.1)
  sound := serves.registerSound sound
  line := serves.line_of_kept sound.2.2.1 here free
  tables := serves.tables
  verification := serves.verification

theorem Quiets.emptied (h : Quiets c d) (n : JacketNo) : c.Freed (d.updJacket n (Jacket.emptied .idle)) n := by
  refine ⟨?_, fun m other => ?_, h.waiting, h.sound, h.line, h.tables, h.verification⟩
  · rw [jacket_updJacket, if_pos rfl, Jacket.emptied, h.jackets n]
  · rw [jacket_updJacket, if_neg other]
    exact h.jackets m

/-- A jacket that serves no record and holds nothing under pressure faults without a VENT (R95). -/
theorem faultJacket_unserved (works : (c.jacket n).state.isFault = false) (calm : (c.jacket n).state.pressing = false)
    (unserved : (c.jacket n).slot = none) (cause : FaultCause) : c.faultJacket n cause =
      ((c.updJacket n fun j => { j with state := .fault cause, slot := none }).dropStale n).raise .jacketFault n.val cause.code := by
  have served : (c.updJacket n fun j => { j with state := .fault cause }).served n = none := by
    rw [Controller.served, jacket_updJacket, if_pos rfl, unserved]
    rfl
  unfold Controller.faultJacket Controller.holdServed
  dsimp only
  rw [if_neg (ne_true_of_eq_false works), served, if_neg (ne_true_of_eq_false calm)]
  dsimp only
  rw [updJacket_updJacket]

theorem dropStale_noUnload {cause : FaultCause} (fault : (c.jacket n).state = .fault cause) : (c.dropStale n).NoUnload n := by
  refine noUnload_of_rid ?_ (dropCommands_rid c n fun k => !k.standsIn (c.jacket n).state)
  rw [fault]
  rfl

theorem PlacesUnbound.noUnload (h : PlacesUnbound c d) (none : c.NoUnload n) : d.NoUnload n := by
  refine ⟨by rw [h.only.jacket]; exact none.1, fun e member owner => ?_⟩
  obtain ⟨new, queue, unbound⟩ := h.placed
  rw [queue] at member
  rcases List.mem_append.mp member with old | added
  · exact none.2 e old owner
  · have free := unbound e added
    rw [owner] at free
    cases free

end Sys2Proof.Machine
end

section
/-! SUPPORT. JACKET_CLEAR (O27, R114). -/
namespace Sys2Proof.Machine

variable {c d u : Controller} {n m : JacketNo} {r x y : Record}

/-- The part once the cylinder of a jacket has left it. -/
def Controller.cleared (c : Controller) (n : JacketNo) : Controller := (c.dropCommands n fun k => k == .unload).finishUnload n

/-- What the end of an unload leaves (R114, steps 1 and 2). -/
structure Ended (c u : Controller) (n : JacketNo) (r : Record) : Prop where
  freed : (c.verif n).count ≠ 3 → c.Freed u n
  suspect : (c.verif n).count = 3 → (u.jacket n).state = .fault .suspect ∧ u.Reported .jacketFault n.val 4
  empty : (u.jacket n).loaded = none ∧ (u.jacket n).slot = none
  noUnload : u.NoUnload n
  sound : u.RegisterSound
  line : u.line = c.line
  record : ∃ x, u.recordAt r.slot = some x ∧ x.bare = r.bare

section Cleared
variable (sound : c.RegisterSound) (here : c.recordAt r.slot = some r) (free : r.releasePending = false)
include sound here free

theorem cleared_idle (clean : (c.verif n).count ≠ 3) : Ended c (c.cleared n) n r := by
  have serves := dropCommands_serves c n fun k => k == .unload
  have quiets := serves.quiets sound here free
  have rid := dropCommands_rid c n fun k => k == .unload
  have noUnload := noUnload_of_rid rfl rid
  obtain ⟨x, there, same⟩ := serves.recordAt sound.2.2.1 here free
  rw [Controller.cleared]
  generalize (c.dropCommands n fun k => k == .unload) = d at *
  have count : (d.verif n).count ≠ 3 := by
    rw [Controller.verif, serves.verification]
    exact clean
  have ends : d.finishUnload n = d.updJacket n (Jacket.emptied .idle) := if_neg count
  have freed := quiets.emptied n
  rw [ends]
  have jacket : (d.updJacket n (Jacket.emptied .idle)).jacket n = (d.jacket n).emptied .idle := (jacket_updJacket _ _ _ _).trans (if_pos rfl)
  refine ⟨fun _ => freed, fun three => absurd three clean, ?_, ⟨?_, noUnload.2⟩, quiets.sound, quiets.line, x, there, same⟩
  · rw [jacket]
    exact ⟨rfl, rfl⟩
  · rw [jacket]
    exact noUnload.1

theorem cleared_suspect (unloading : (c.jacket n).state = .unloading) (three : (c.verif n).count = 3) : Ended c (c.cleared n) n r := by
  have serves := dropCommands_serves c n fun k => k == .unload
  have quiets := serves.quiets sound here free
  obtain ⟨x, there, same⟩ := serves.recordAt sound.2.2.1 here free
  rw [Controller.cleared]
  generalize (c.dropCommands n fun k => k == .unload) = d at *
  have count : (d.verif n).count = 3 := by
    rw [Controller.verif, serves.verification]
    exact three
  have state : (d.jacket n).state = .unloading := by
    rw [serves.jackets n]
    exact unloading
  have jacket : (d.updJacket n fun j => { j with slot := none, loaded := none }).jacket n = { d.jacket n with slot := none, loaded := none } :=
    (jacket_updJacket _ _ _ _).trans (if_pos rfl)
  have works : ((d.updJacket n fun j => { j with slot := none, loaded := none }).jacket n).state.isFault = false := by
    rw [jacket]
    exact congrArg JacketState.isFault state
  have ends : d.finishUnload n = (d.updJacket n fun j => { j with slot := none, loaded := none }).faultJacket n .suspect := if_pos count
  rw [ends]
  obtain ⟨owed, faulted⟩ := faultJacket_jacket works .suspect
  have reported := faultJacket_reported works .suspect
  have calm : ((d.updJacket n fun j => { j with slot := none, loaded := none }).jacket n).state.pressing = false := by
    rw [jacket]
    exact congrArg JacketState.pressing state
  have made := faultJacket_unserved works calm (by rw [jacket]) .suspect
  rw [updJacket_updJacket] at made
  have fault : ((d.updJacket n fun j => { j with state := .fault .suspect, slot := none, loaded := none }).jacket n).state =
      .fault .suspect := by rw [jacket_updJacket, if_pos rfl]
  have dropped := dropStale_serves (d.updJacket n fun j => { j with state := .fault .suspect, slot := none, loaded := none }) n
  have noUnload := dropStale_noUnload fault
  have raised := raise_serves ((d.updJacket n fun j => { j with state := .fault .suspect, slot := none, loaded := none }).dropStale n)
    .jacketFault n.val FaultCause.suspect.code
  have placed := raise_places ((d.updJacket n fun j => { j with state := .fault .suspect, slot := none, loaded := none }).dropStale n)
    .jacketFault n.val FaultCause.suspect.code
  have both := dropped.trans raised
  have free_x : x.releasePending = false := by
    rw [eq_of_bare same.symm]
    exact free
  have still : (d.updJacket n fun j => { j with state := .fault .suspect, slot := none, loaded := none }).RegisterSound := quiets.sound
  obtain ⟨z, here_z, same_z⟩ := both.recordAt still.2.2.1 (show _ = some x from there) free_x
  have line := both.line_of_kept still.2.2.1 (show _ = some x from there) free_x
  have noUnload' := placed.noUnload noUnload
  have sound' := both.registerSound still
  rw [← made] at here_z line noUnload' sound'
  refine ⟨fun other => absurd three other, fun _ => ⟨by rw [faulted], reported⟩, ?_, noUnload', sound', line.trans quiets.line, z, here_z,
    same_z.trans same⟩
  rw [faulted, jacket]
  exact ⟨rfl, rfl⟩

theorem cleared_ends (unloading : (c.jacket n).state = .unloading) : Ended c (c.cleared n) n r := by
  by_cases three : (c.verif n).count = 3
  · exact cleared_suspect sound here free unloading three
  · exact cleared_idle sound here free three

end Cleared

/-! ### The clear, by what follows it (R114, step 3) -/

theorem takeClear_unloads {serial : Serial} (unloading : (c.jacket n).state = .unloading) (loaded : (c.jacket n).loaded = some serial)
    (serves : (c.jacket n).slot = some r.slot) :
    ((c.jacket n).onClear = some .route → c.takeClear n serial = ((c.cleared n).route r.slot).jacketPass n) ∧
    ((c.jacket n).onClear = some .requeue → c.takeClear n serial = ((c.cleared n).enterWaiting r.slot).jacketPass n) := by
  rw [Controller.takeClear]
  dsimp only
  rw [if_pos ⟨loaded, unloading⟩, servedSlot_eq serves]
  refine ⟨fun next => ?_, fun next => ?_⟩
  all_goals
    rw [next]
    rfl

/-- The jacket of an unload that has ended rests through changes of records and through its own pass. -/
theorem Ended.after (ended : Ended c u n r) (serves : (d.jacket n) = { u.jacket n with owedCommand := (d.jacket n).owedCommand })
    (sound : d.RegisterSound) (reports : u.Reported .jacketFault n.val 4 → d.Reported .jacketFault n.val 4) :
    ((d.jacketPass n).jacket n).loaded = none ∧
      ((c.verif n).count < 3 → ((d.jacketPass n).jacket n).state = .idle ∨ ((d.jacketPass n).jacket n).state = .awaiting) ∧
      ((c.verif n).count = 3 → ((d.jacketPass n).jacket n).state = .fault .suspect ∧ (d.jacketPass n).Reported .jacketFault n.val 4) := by
  obtain ⟨loaded, idle, fault⟩ := jacketPass_own sound n
  refine ⟨?_, fun few => idle ?_, fun three => ?_⟩
  · rw [loaded, serves]
    exact ended.empty.1
  · rw [serves, (ended.freed (Nat.ne_of_lt few)).1]
  · obtain ⟨state, reported⟩ := ended.suspect three
    have suspect : (d.jacket n).state = .fault .suspect := by
      rw [serves]
      exact state
    rw [fault (by rw [suspect]; rfl)]
    exact ⟨suspect, jacketPass_reports sound (by decide) (by decide) (reports reported) n⟩

/-- A record sent on its way, and then its jacket's pass. -/
theorem routed_passes (sound : u.RegisterSound) (here : u.recordAt r.slot = some x) (same : x.bare = r.bare) (free : r.releasePending = false)
    {state : RecordState} (moves : state ≠ .waiting) (l : List Order) (n : JacketNo) :
    ∃ r', ((u.routeTo r.slot state l).jacketPass n).recordAt r.slot = some r' ∧ r.SameIdentity r' ∧ r'.state = state ∧ r'.verdict = r.verdict ∧
      ∀ o ∈ l, ((u.routeTo r.slot state l).jacketPass n).Ordered r.slot r.serial o := by
  have fields := eq_of_bare same.symm
  have makes := routeTo_makes here (by rw [fields]; exact free) state l
  obtain ⟨y, there, bare, -⟩ := makes.record
  have ordered (o : Order) (member : o ∈ l) : (u.routeTo r.slot state l).Ordered r.slot r.serial o := by
    have made := makes.ordered (List.mem_append_right _ member)
    rw [fields] at made
    exact made
  have y_fields := eq_of_bare bare.symm
  have y_slot : y.slot = r.slot := recordAt_slot there
  have y_state : y.state ≠ .waiting := by
    rw [y_fields]
    exact moves
  have sound' : (u.routeTo r.slot state l).RegisterSound :=
    (makeOrders_serves _ _ _).registerSound (registerSound_updRecord sound r.slot (f := fun r => { r with state }) fun _ => ⟨rfl, rfl⟩)
  obtain ⟨after, still⟩ := jacketPass_record sound' (show _ = some y by rw [y_slot]; exact there) y_state n
  rw [y_slot] at after still
  refine ⟨y, after, ?_, ?_, ?_, fun o member => still _ o (ordered o member)⟩
  · rw [y_fields, fields]
    exact sameIdentity_refl r
  · rw [y_fields]
  · rw [y_fields, fields]

/-- Any route only changes the record and makes its orders. -/
theorem route_rests (sound : u.RegisterSound) (free : ∀ x, u.recordAt r.slot = some x → x.releasePending = false) :
    (u.route r.slot).RegisterSound ∧ ((u.route r.slot).jacket n = { u.jacket n with owedCommand := ((u.route r.slot).jacket n).owedCommand }) ∧
      ∀ cls subject cause, cls ≠ .infeedHeld → u.Reported cls subject cause → (u.route r.slot).Reported cls subject cause := by
  have goes (state : RecordState) (l : List Order) : (u.routeTo r.slot state l).RegisterSound ∧
      ((u.routeTo r.slot state l).jacket n = { u.jacket n with owedCommand := ((u.routeTo r.slot state l).jacket n).owedCommand }) ∧
      ∀ cls subject cause, cls ≠ .infeedHeld → u.Reported cls subject cause → (u.routeTo r.slot state l).Reported cls subject cause := by
    have serves := makeOrders_serves (u.updRecord r.slot fun r => { r with state }) r.slot l
    have adds := (updRecord_adds u r.slot fun r => { r with state }).trans
      (makeOrders_adds (notPending_updRecord (fun r => { r with state }) (fun _ => ⟨rfl, rfl⟩) free) l)
    exact ⟨serves.registerSound (registerSound_updRecord sound r.slot (f := fun r => { r with state }) fun _ => ⟨rfl, rfl⟩),
      serves.jackets n, fun cls subject cause other => adds.reported other⟩
  have stays : u.RegisterSound ∧ (u.jacket n = { u.jacket n with owedCommand := (u.jacket n).owedCommand }) ∧
      ∀ cls subject cause, cls ≠ .infeedHeld → u.Reported cls subject cause → u.Reported cls subject cause :=
    ⟨sound, rfl, fun _ _ _ _ made => made⟩
  unfold Controller.route
  split
  · exact stays
  · dsimp only
    split
    · exact goes _ _
    · split
      · exact goes _ _
      · exact goes _ _
    · exact goes _ _
    · exact goes _ _
    · exact stays

/-! ### The other clears (R114) -/

theorem takeClear_forgets {serial : Serial} (fault : (c.jacket n).state.isFault = true) (loaded : (c.jacket n).loaded = some serial) :
    c.takeClear n serial = c.updJacket n fun j => { j with loaded := none } := by
  rw [Controller.takeClear]
  dsimp only
  have other : (c.jacket n).state ≠ .unloading := fun unloading => by
    rw [unloading] at fault
    cases fault
  rw [if_neg fun both => other both.2, if_pos ⟨loaded, fault⟩]

theorem takeClear_strays {serial : Serial} (other : (c.jacket n).loaded ≠ some serial ∨
    ((c.jacket n).state ≠ .unloading ∧ (c.jacket n).state.isFault = false)) :
    c.takeClear n serial = c.raise .strayReport serial (6 * 16 + 2) := by
  rw [Controller.takeClear]
  dsimp only
  rw [if_neg fun both => other.elim (fun h => h both.1) fun h => h.1 both.2,
    if_neg fun both => other.elim (fun h => h both.1) fun h => absurd both.2 (ne_true_of_eq_false h.2)]
  rfl

theorem recordPass_holding (holding : c.line.state = .holding) (slot : Nat) : c.recordPass slot = c := by
  rw [Controller.recordPass, Controller.lineMoving, holding]
  rfl

theorem jacketPass_holding (holding : c.line.state = .holding) (n : JacketNo) : c.jacketPass n = c := by
  rw [Controller.jacketPass, Controller.lineMoving, holding]
  rfl

/-- Settles O27: the jacket's end, then the record's way, then the jacket's pass. -/
theorem clearEndsUnload : Obligations.ClearEndsUnload := by
  intro s h p serial n size hears role read
  have run := exec_jacketClear hears role
  rw [read, Option.elim_some] at run
  refine ⟨fun r sound unloading loaded serves here free state => ?_, fun fault loaded => ?_, fun other => ⟨_, run, ?_⟩⟩
  · have ended : Ended s.part ((heard s.part h 6 p).cleared n) n r := by
      obtain ⟨freed, suspect, empty, noUnload, after, line, record⟩ :=
        cleared_ends (c := heard s.part h 6 p) (n := n) (r := r) sound here free unloading
      exact ⟨freed, suspect, empty, noUnload, after, line, record⟩
    obtain ⟨routes, requeues⟩ := takeClear_unloads (c := heard s.part h 6 p) (serial := serial) unloading loaded serves
    replace routes (next : (s.part.jacket n).onClear = some .route) := run.trans (congrArg (fun d => Host.Outcome.next (s.withPart d)) (routes next))
    replace requeues (next : (s.part.jacket n).onClear = some .requeue) :=
      run.trans (congrArg (fun d => Host.Outcome.next (s.withPart d)) (requeues next))
    generalize (heard s.part h 6 p).cleared n = u at ended routes requeues
    obtain ⟨x, there, same⟩ := ended.record
    have fields := eq_of_bare same.symm
    have at_slot (y : Record) (at_y : u.recordAt r.slot = some y) : y.releasePending = false := by
      obtain rfl : x = y := Option.some.inj (there.symm.trans at_y)
      rw [fields]
      exact free
    refine ⟨⟨u, x, fun few => ended.freed (Nat.ne_of_lt few), fun three => ?_, ended.noUnload.1, ended.noUnload.2, there,
      sameIdentity_of_bare same.symm, at_slot x there, ?_, ?_, ?_, ?_, ?_, routes, requeues⟩, fun next => ?_, fun next holding => ?_⟩
    · obtain ⟨suspect, reported⟩ := ended.suspect three
      exact ⟨suspect, ended.empty.1, ended.empty.2, ended.sound, reported⟩
    · rw [fields]
      exact state
    all_goals try rw [fields]
    · intro goes
      obtain ⟨sound', jacket, reports⟩ := route_rests (n := n) ended.sound at_slot
      obtain ⟨empty, idle, fault⟩ := ended.after jacket sound' (reports _ _ _ (by decide))
      have code : u.line.items.plantCode = s.part.line.items.plantCode := by rw [ended.line]
      have way {next : RecordState} {l : List Order} (moves : next ≠ .waiting) (made : u.route r.slot = u.routeTo r.slot next l) :
          goes ((u.route r.slot).jacketPass n) next l := by
        rw [made]
        exact routed_passes ended.sound there same free moves l n
      refine ⟨_, routes next, empty, fun k fail ordinary returned => ?_, fun k fail why => ?_, fun manual => ?_, fun k reference => ?_, idle,
        fault, fun d pass dated => ?_⟩
      · have made := route_stamps there (.inr ⟨⟨k, by rw [fields]; exact fail⟩, by rw [fields]; exact ordinary, by rw [fields]; exact returned⟩)
        rw [Record.stampOrders, marks_fail (k := k) (by rw [fields]; exact fail), code] at made
        exact way nofun made
      · exact way nofun (route_scraps there (k := k) (by rw [fields]; exact fail) (by rw [fields]; exact why))
      · exact way nofun (route_manual there (by rw [fields]; exact manual))
      · exact way nofun (route_reference there (k := k) (by rw [fields]; exact reference))
      · have made := route_stamps there (.inl (by rw [fields]; exact pass))
        rw [Record.stampOrders, marks_pass (d := d) (by rw [fields]; exact pass) (by rw [fields]; exact dated), code, fields] at made
        obtain ⟨r', at_r, -, stamping, -, orders⟩ := way (next := .stamping) nofun made
        exact ⟨r', at_r, stamping, orders _ (List.mem_cons_self ..), orders _ (List.mem_cons_of_mem _ (List.mem_singleton_self _))⟩
    · have held : u.line.state = .holding := by rw [ended.line]; exact holding
      have made : (u.enterWaiting r.slot).jacketPass n = u.updRecord r.slot fun x => { x with state := .waiting, jacket := none } := by
        have rests : u.enterWaiting r.slot = u.updRecord r.slot fun x => { x with state := .waiting, jacket := none } :=
          recordPass_holding (c := u.updRecord r.slot fun x => { x with state := .waiting, jacket := none }) held r.slot
        rw [rests]
        exact jacketPass_holding (c := u.updRecord r.slot fun x => { x with state := .waiting, jacket := none }) held n
      have goes := requeues next
      rw [made] at goes
      refine ⟨_, { x with state := .waiting, jacket := none }, goes, ?_, ?_, rfl, rfl, ?_, ?_, ended.empty.1, ended.empty.2, fun few => ?_,
        fun three => ended.suspect three⟩
      · rw [recordAt_updRecord u r.slot (fun x => { x with state := .waiting, jacket := none }) fun _ => rfl, there]
        rfl
      · exact sameIdentity_of_bare (x := x) same.symm
      · show x.countedInvalids = _
        rw [fields]
      · show x.attempts = _
        rw [fields]
      · show (u.jacket n).state = _
        rw [(ended.freed (Nat.ne_of_lt few)).1]
  · rw [run, takeClear_forgets (c := heard s.part h 6 p) fault loaded]
    rfl
  · have only := raise_onlyPlaces (heard s.part h 6 p) .strayReport serial (6 * 16 + 2)
    rw [takeClear_strays (c := heard s.part h 6 p) other]
    exact ⟨only.records, only.jackets, raise_reported _ _ _ _⟩

end Sys2Proof.Machine
end

section
/-! SUPPORT. A matching arrival at a jacket (O21, R85, R86). -/
namespace Sys2Proof.Machine

variable {c d : Controller} {n m : JacketNo} {r x y : Record} {serial : Serial}

/-- The part once an arrived cylinder is loaded and its record is TESTING. -/
def Controller.arrived (c : Controller) (n : JacketNo) (slot : Nat) : Controller :=
  ((c.updRecord slot fun r => { r with state := .testing }).cancelOrders slot).updJacket n
    fun j => { j with loaded := j.awaited, awaited := none }

theorem takeArrival_arrives (awaiting : (c.jacket n).state = .awaiting) (awaits : (c.jacket n).awaited = some serial)
    (serves : (c.jacket n).slot = some r.slot) : c.takeArrival n serial =
      if (c.arrived n r.slot).lineMoving then (c.arrived n r.slot).startProgram n
      else (c.arrived n r.slot).updJacket n fun j => { j with state := .heldVented } := by
  rw [Controller.takeArrival, if_pos awaiting, if_pos awaits, Controller.arrive, servedSlot_eq serves]
  rfl

section Arrived
variable (sound : c.RegisterSound) (here : c.recordAt r.slot = some r) (free : r.releasePending = false)
include sound here free

theorem arrived_holds (n : JacketNo) :
    (∃ x, (c.arrived n r.slot).recordAt r.slot = some x ∧ x.bare = { r with state := .testing }.bare ∧ x.owedOrders = []) ∧
      (c.arrived n r.slot).line = c.line ∧ (c.arrived n r.slot).tables = c.tables ∧
      ∃ owed, (c.arrived n r.slot).jacket n = { c.jacket n with loaded := (c.jacket n).awaited, awaited := none, owedCommand := owed } := by
  have testing := registerSound_updRecord sound r.slot (f := fun r => { r with state := .testing }) fun _ => ⟨rfl, rfl⟩
  have there : (c.updRecord r.slot fun r => { r with state := .testing }).recordAt r.slot = some { r with state := .testing } := by
    rw [recordAt_updRecord c r.slot (fun r => { r with state := .testing }) fun _ => rfl, here]
    rfl
  have served := cancelOrders_serves (c.updRecord r.slot fun r => { r with state := .testing }) r.slot
  obtain ⟨x, at_slot, same, none⟩ := cancelOrders_record testing.2.2.1 there free
  have line := served.line_of_kept testing.2.2.1 there free
  have jacket := served.jackets n
  have tables := served.tables
  rw [Controller.arrived]
  generalize (c.updRecord r.slot fun r => { r with state := .testing }).cancelOrders r.slot = e at *
  refine ⟨⟨x, at_slot, same, none⟩, line, tables, (e.jacket n).owedCommand, ?_⟩
  rw [jacket_updJacket, if_pos rfl, jacket]
  rfl

variable (awaiting : (c.jacket n).state = .awaiting) (awaits : (c.jacket n).awaited = some serial)
  (serves : (c.jacket n).slot = some r.slot)
include awaiting awaits serves

theorem arrival_starts (moving : c.line.state = .running ∨ c.line.state = .stopping)
    (zero : (c.tables.blockAt (c.jacket n).programStart).kind = .zero) :
    let t := c.takeArrival n serial
    (∃ r', t.recordAt r.slot = some r' ∧ r'.state = .testing ∧ r'.attempts = min 255 (r.attempts + 1) ∧ r'.owedOrders = []) ∧
      (t.jacket n).state = .running .zero ∧ (t.jacket n).loaded = some serial ∧ (t.jacket n).awaited = none ∧
      (t.jacket n).currentBlock = (c.jacket n).programStart ∧ (t.jacket n).elapsed = 0 ∧ (t.jacket n).sampleAge = 0 ∧
      (t.jacket n).zero = none ∧ (t.jacket n).hold = none ∧ (t.jacket n).vent = none ∧ (t.jacket n).earlyEnd = none := by
  intro t
  obtain ⟨⟨x, there, same, none⟩, line, tables, owed, jacket⟩ := arrived_holds sound here free n
  have moves : (c.arrived n r.slot).lineMoving = true := (lineMoving_iff _).mpr (by rw [line]; exact moving)
  have made : t = (c.arrived n r.slot).startProgram n := (takeArrival_arrives awaiting awaits serves).trans (if_pos moves)
  generalize c.arrived n r.slot = e at *
  have start : (e.tables.blockAt (e.jacket n).programStart).kind = .zero := by
    rw [tables, jacket]
    exact zero
  have x_slot : x.slot = r.slot := recordAt_slot there
  have record := startProgram_record (r := x) start (by rw [jacket, x_slot]; exact serves) (by rw [x_slot]; exact there)
  have context : (e.startProgram n).jacket n = ((e.jacket n).beginProgram).beginBlock (e.tables.blockAt (e.jacket n).programStart) := by
    rw [startProgram_zero start, jacket_updJacket, if_pos rfl]
    rfl
  rw [made]
  refine ⟨⟨{ x with attempts := min 255 (x.attempts + 1) }, by rw [← x_slot]; exact record, ?_, ?_, none⟩, ?_⟩
  · show x.state = _
    rw [eq_of_bare same.symm]
  · show min 255 (x.attempts + 1) = _
    rw [eq_of_bare same.symm]
  · rw [jacket] at start
    rw [context, jacket]
    exact ⟨congrArg JacketState.running start, awaits, rfl, rfl, rfl, rfl, rfl, rfl, rfl, rfl⟩

theorem arrival_holds (holding : c.line.state = .holding) :
    let t := c.takeArrival n serial
    (∃ r', t.recordAt r.slot = some r' ∧ r'.state = .testing ∧ r'.attempts = r.attempts ∧ r'.owedOrders = []) ∧
      (t.jacket n).state = .heldVented ∧ (t.jacket n).loaded = some serial ∧ (t.jacket n).awaited = none ∧
      (t.jacket n).slot = some r.slot := by
  intro t
  obtain ⟨⟨x, there, same, none⟩, line, -, owed, jacket⟩ := arrived_holds sound here free n
  have still : (c.arrived n r.slot).lineMoving = false := by
    rw [Controller.lineMoving, line, holding]
    rfl
  have made : t = (c.arrived n r.slot).updJacket n fun j => { j with state := .heldVented } :=
    (takeArrival_arrives awaiting awaits serves).trans (if_neg (ne_true_of_eq_false still))
  generalize c.arrived n r.slot = e at *
  rw [made]
  refine ⟨⟨x, there, ?_, ?_, none⟩, ?_⟩
  · rw [eq_of_bare same.symm]
  · rw [eq_of_bare same.symm]
  · rw [jacket_updJacket, if_pos rfl, jacket]
    exact ⟨rfl, awaits, rfl, serves⟩

end Arrived

end Sys2Proof.Machine
end

section
/-! SUPPORT. A misroute (O21, R87, R88). -/
namespace Sys2Proof.Machine

variable {c d : Controller} {n m : JacketNo} {r x y z : Record} {serial : Serial}

/-! ### A record at rest through the hold of another (R43) -/

/-- No withdrawal brings back what is rid of. -/
theorem withdraw_keepsRid {p q : QueueEntry → Bool} {I : Controller → Prop} (shuts : Shuts p I) (h : Rid p I c) : Rid p I (c.withdraw q) := by
  suffices ∀ fuel d, Rid p I d → Rid p I (Controller.withdrawLoop Controller.arbitrate q fuel d) from this _ c h
  intro fuel
  induction fuel with
  | zero => exact fun _ h => h
  | succ fuel ih =>
    intro d h
    unfold Controller.withdrawLoop
    split
    · have erased : Rid p I (d.setQueue (d.ring.queue.eraseP q)) :=
        ⟨shuts.erase d _ h.1, Nat.eq_zero_of_le_zero ((List.eraseP_sublist.countP_le (p := p)).trans_eq h.2)⟩
      exact ih _ (Rid.runs shuts (arbitrate_runs _) (Rid.runs shuts (judge_places true _).runs erased))
    · exact h

/-- The hold of another record leaves one at rest, but for a result it has placed. -/
theorem AtRest.holdRecord (h : AtRest y c) (free : y.releasePending = false) {slot : Nat} (other : y.slot ≠ slot) (cause : HeldCause) :
    ∃ y', AtRest y' (c.holdRecord slot cause) ∧ y'.bare = y.bare := by
  unfold Controller.holdRecord
  split
  · exact ⟨y, h, rfl⟩
  · split
    · exact ⟨y, h, rfl⟩
    · have sound := registerSound_updRecord h.sound slot (f := fun r => { r with state := .manualHeld, heldCause := some cause }) fun _ => ⟨rfl, rfl⟩
      have there : (c.updRecord slot fun r => { r with state := .manualHeld, heldCause := some cause }).recordAt y.slot = some y :=
        (recordAt_updRecord_other c other (f := fun r => { r with state := .manualHeld, heldCause := some cause }) fun _ => rfl).trans h.here
      have served := cancelOrders_serves (c.updRecord slot fun r => { r with state := .manualHeld, heldCause := some cause }) slot
      obtain ⟨y', at_slot, same⟩ := served.recordAt sound.2.2.1 there free
      have y_slot : y'.slot = y.slot := recordAt_slot at_slot
      refine ⟨y', ⟨served.registerSound sound, recordAt_mem at_slot, ?_⟩, same⟩
      rw [y_slot, cancelOrders_eq]
      have held : Rid (QueueEntry.isOrderOf y.slot) (OwesNone y.slot) (c.updRecord slot fun r => { r with state := .manualHeld, heldCause := some cause }) :=
        h.rid.updRecord (f := fun r => { r with state := .manualHeld, heldCause := some cause }) (fun _ => rfl) other
      have cleared : Rid (QueueEntry.isOrderOf y.slot) (OwesNone y.slot)
          ((c.updRecord slot fun r => { r with state := .manualHeld, heldCause := some cause }).ordersCleared slot) :=
        held.updRecord (f := fun r => { r with owedOrders := [] }) (fun _ => rfl) other
      exact withdraw_keepsRid (owesNone_shuts y.slot) cleared

/-! ### The record that carries the serial of a misroute (R87, R88) -/

theorem misroutes_iff (state : RecordState) : state.misroutes = true ↔ state = .admitted ∨ state = .weighed ∨ state = .waiting ∨
    state = .routed ∨ state = .stamping ∨ state = .scrapping ∨ state = .leaving := by
  cases state <;> simp [RecordState.misroutes]

/-- The jacket that awaited a misrouted cylinder is released (R88). -/
def Controller.releaseAwaiting (c : Controller) (x : Record) : Controller :=
  match x.state, x.jacket with
  | .routed, some m => (c.freeAwaiting m).jacketPass m
  | _, _ => c

theorem releaseAwaiting_routed (state : x.state = .routed) (jacket : x.jacket = some m) :
    c.releaseAwaiting x = (c.freeAwaiting m).jacketPass m := by
  rw [Controller.releaseAwaiting, state, jacket]

theorem holdMisrouted_holds (misroutes : x.state.misroutes = true) (free : x.releasePending = false) :
    c.holdMisrouted x = (c.holdRecord x.slot .misroute).releaseAwaiting x := if_pos ⟨misroutes, free⟩

theorem holdMisrouted_rests (why : x.state.misroutes = false ∨ x.releasePending = true) : c.holdMisrouted x = c :=
  if_neg fun both => why.elim (fun other => absurd both.1 (ne_true_of_eq_false other)) fun pending => absurd pending (ne_true_of_eq_false both.2)

theorem AtRest.releaseAwaiting (h : AtRest y c) (still : y.state ≠ .waiting) (x : Record) : AtRest y (c.releaseAwaiting x) := by
  unfold Controller.releaseAwaiting
  split
  · exact (h.freeAwaiting _).jacketPass still _
  · exact h

/-- A held record at rest stays so while the record of another serial is held. -/
theorem AtRest.holdMisrouted (h : AtRest y c) (free : y.releasePending = false) (held : y.state = .manualHeld) (member : z ∈ c.records) :
    ∃ y', AtRest y' (c.holdMisrouted z) ∧ y'.bare = y.bare := by
  by_cases acts : z.state.misroutes = true ∧ z.releasePending = false
  · have other : y.slot ≠ z.slot := fun same => by
      obtain rfl := List.inj_on_of_nodup_map h.sound.2.2.1 h.member member same
      rw [held] at acts
      cases acts.1
    obtain ⟨y', rest, same⟩ := h.holdRecord free other .misroute
    have still : y'.state ≠ .waiting := by
      rw [eq_of_bare same.symm]
      exact fun waits => nomatch held.symm.trans waits
    rw [holdMisrouted_holds acts.1 acts.2]
    exact ⟨y', rest.releaseAwaiting still z, same⟩
  · refine ⟨y, ?_, rfl⟩
    rw [show c.holdMisrouted z = c from if_neg acts]
    exact h

/-! ### The misroute (R87) -/

/-- The jacket's own part of a misroute. -/
def Controller.misrouted (c : Controller) (n : JacketNo) (serial : Serial) : Controller :=
  (c.updJacket n fun j => { j with state := .fault .misroute, loaded := some serial, awaited := none, slot := none }).raise .jacketFault n.val 0

/-- The record that carries the serial, held. -/
def Controller.holdCarrier (c : Controller) (serial : Serial) : Controller :=
  match c.recordOf serial with
  | none => c
  | some x => c.holdMisrouted x

theorem takeArrival_misroutes (awaiting : (c.jacket n).state = .awaiting) (other : (c.jacket n).awaited ≠ some serial)
    (serves : (c.jacket n).slot = some r.slot) :
    c.takeArrival n serial = ((c.holdRecord r.slot .misroute).holdCarrier serial).misrouted n serial := by
  rw [Controller.takeArrival, if_pos awaiting, if_neg other, Controller.misroute, servedSlot_eq serves]
  rfl

theorem takeArrival_strays (other : (c.jacket n).state ≠ .awaiting) : c.takeArrival n serial = c.raise .strayReport serial (6 * 16 + 2) :=
  if_neg other

theorem misrouted_jacket (c : Controller) (n : JacketNo) (serial : Serial) :
    (c.misrouted n serial).jacket n = { c.jacket n with state := .fault .misroute, loaded := some serial, awaited := none, slot := none } ∧
      (∀ m, m ≠ n → (c.misrouted n serial).jacket m = c.jacket m) ∧ (c.misrouted n serial).records = c.records ∧
      (c.misrouted n serial).Reported .jacketFault n.val 0 := by
  have only := raise_onlyPlaces (c.updJacket n fun j => { j with state := .fault .misroute, loaded := some serial, awaited := none, slot := none })
    .jacketFault n.val 0
  refine ⟨(only.jacket n).trans ((jacket_updJacket _ _ _ _).trans (if_pos rfl)), fun m apart => (only.jacket m).trans
    ((jacket_updJacket _ _ _ _).trans (if_neg apart)), only.records, raise_reported _ _ _ _⟩

theorem AtRest.misrouted (h : AtRest y c) (n : JacketNo) (serial : Serial) : AtRest y (c.misrouted n serial) := by
  refine AtRest.places ?_ (raise_places _ _ _ _)
  exact ⟨h.sound, h.member, h.rid⟩

/-- What the awaited record's hold leaves of the record that carries another serial. -/
structure Carried (c d : Controller) (r x : Record) : Prop where
  quiets : Quiets c d
  held : ∃ y, AtRest y d ∧ y.bare = { r with state := .manualHeld, heldCause := some .misroute }.bare
  stays : x.releasePending = false → ∃ x', d.recordOf x.serial = some x' ∧ x'.bare = x.bare
  comes : ∀ x', x' ∈ d.records → x'.slot = x.slot ∨ x'.serial = x.serial → x'.bare = x.bare

theorem holdRecord_carried (sound : c.RegisterSound) (here : c.recordAt r.slot = some r) (free : r.releasePending = false)
    (routed : r.state = .routed) (carrier : x ∈ c.records) (other : x.slot ≠ r.slot) : Carried c (c.holdRecord r.slot .misroute) r x := by
  have apart : r.state ≠ .manualHeld ∧ r.state ≠ .waiting := by
    rw [routed]
    decide
  obtain ⟨y, rest, same, -⟩ := holdRecord_atRest here free apart.1 .misroute sound
  have quiets := holdRecord_quiets here free apart.1 .misroute sound apart.2
  have put := registerSound_updRecord sound r.slot (f := fun r => { r with state := .manualHeld, heldCause := some .misroute }) fun _ => ⟨rfl, rfl⟩
  have there : (c.updRecord r.slot fun r => { r with state := .manualHeld, heldCause := some .misroute }).recordAt x.slot = some x :=
    (recordAt_updRecord_other c other (f := fun r => { r with state := .manualHeld, heldCause := some .misroute }) fun _ => rfl).trans
      (recordAt_of_mem sound.2.2.1 carrier)
  have serves := cancelOrders_serves (c.updRecord r.slot fun r => { r with state := .manualHeld, heldCause := some .misroute }) r.slot
  rw [← holdRecord_eq here free apart.1] at serves
  refine ⟨quiets, ⟨y, rest, same⟩, fun unpending => ?_, fun x' member identified => ?_⟩
  · obtain ⟨x', found, bare⟩ := serves.recordAt put.2.2.1 there unpending
    have serial : x'.serial = x.serial := (sameIdentity_of_bare bare.symm).2.1
    exact ⟨x', (recordOf_iff quiets.sound).mpr ⟨recordAt_mem found, serial⟩, bare⟩
  · obtain ⟨z, from_z, bare⟩ := serves.from_record member
    have kept := sameIdentity_of_bare bare
    have mine : z = x := by
      rcases identified with slot | serial
      · exact List.inj_on_of_nodup_map put.2.2.1 from_z (recordAt_mem there) (kept.1.symm.trans slot)
      · exact List.inj_on_of_nodup_map put.2.1 from_z (recordAt_mem there) (kept.2.1.symm.trans serial)
    rw [← bare, mine]

end Sys2Proof.Machine
end

section
/-! SUPPORT. What a misroute leaves of the records and the jackets (O21, R87, R88). -/
namespace Sys2Proof.Machine

variable {c d : Controller} {n m : JacketNo} {r x y : Record} {serial : Serial}

/-- The record a jacket awaited is held, whatever record carries the serial that came. -/
theorem misroute_holds (sound : c.RegisterSound) (here : c.recordAt r.slot = some r) (free : r.releasePending = false)
    (other : r.state ≠ .manualHeld) (n : JacketNo) (serial : Serial) :
    ∃ y, AtRest y (((c.holdRecord r.slot .misroute).holdCarrier serial).misrouted n serial) ∧
      y.bare = { r with state := .manualHeld, heldCause := some .misroute }.bare := by
  obtain ⟨y, rest, same, -⟩ := holdRecord_atRest here free other .misroute sound
  have fields := eq_of_bare same.symm
  unfold Controller.holdCarrier
  split
  · exact ⟨y, rest.misrouted n serial, same⟩
  · next x found =>
    obtain ⟨y', rest', same'⟩ := rest.holdMisrouted (by rw [fields]; exact free) (by rw [fields]) ((recordOf_iff rest.sound).mp found).1
    exact ⟨y', rest'.misrouted n serial, same'.trans same⟩

theorem holdCarrier_eq (found : c.recordOf serial = some x) : c.holdCarrier serial = c.holdMisrouted x := by
  rw [Controller.holdCarrier, found]

theorem holdCarrier_rests (none : ∀ x, c.recordOf serial = some x → x.state.misroutes = false ∨ x.releasePending = true) :
    c.holdCarrier serial = c := by
  rw [Controller.holdCarrier]
  split
  · rfl
  · next x found => exact holdMisrouted_rests (none x found)

/-- The carrier of the serial, held before the jacket that awaited it is released. -/
structure CarrierHeld (c d : Controller) (r x : Record) : Prop where
  mine : ∃ y, AtRest y d ∧ y.bare = { r with state := .manualHeld, heldCause := some .misroute }.bare
  carrier : ∃ y, AtRest y d ∧ y.bare = { x with state := .manualHeld, heldCause := some .misroute }.bare
  quiets : x.state ≠ .waiting → Quiets c d

theorem Carried.holds (h : Carried c d r x) (free : x.releasePending = false) (r_free : r.releasePending = false) (other : x.slot ≠ r.slot)
    (misroutes : x.state.misroutes = true) : ∃ x', d.recordOf x.serial = some x' ∧ x'.bare = x.bare ∧
      CarrierHeld c (d.holdRecord x'.slot .misroute) r x := by
  obtain ⟨x', found, bare⟩ := h.stays free
  have fields := eq_of_bare bare.symm
  have there := (recordOf_iff h.quiets.sound).mp found
  have at_slot := recordAt_of_mem h.quiets.sound.2.2.1 there.1
  have unpending : x'.releasePending = false := by
    rw [fields]
    exact free
  have unheld : x'.state ≠ .manualHeld := by
    rw [fields]
    exact fun held => by
      rw [show x.state = .manualHeld from held] at misroutes
      cases misroutes
  have slot : x'.slot = x.slot := (sameIdentity_of_bare bare.symm).1
  obtain ⟨y, rest, same⟩ := h.held
  have y_fields := eq_of_bare same.symm
  have y_slot : y.slot = r.slot := by rw [y_fields]
  obtain ⟨y', rest', same'⟩ := rest.holdRecord (by rw [y_fields]; exact r_free) (slot := x'.slot)
    (by rw [y_slot, slot]; exact other.symm) .misroute
  obtain ⟨w, w_rest, w_same, -⟩ := holdRecord_atRest at_slot unpending unheld .misroute h.quiets.sound
  refine ⟨x', found, bare, ⟨y', rest', same'.trans same⟩, ⟨w, w_rest, w_same.trans ?_⟩, fun still => h.quiets.trans ?_⟩
  · rw [fields]
    rfl
  · exact holdRecord_quiets at_slot unpending unheld .misroute h.quiets.sound (by rw [fields]; exact still)

theorem heldStill {state : RecordState} (same : y.bare = { x with state := .manualHeld, heldCause := some .misroute }.bare)
    (apart : state ≠ .manualHeld) : y.state ≠ state := by
  rw [eq_of_bare same.symm]
  exact apart.symm

/-- Both records stay held while the jacket that awaited the one is released. -/
theorem CarrierHeld.after (h : CarrierHeld c d r x) (z : Record) (n : JacketNo) (serial : Serial) :
    ((d.releaseAwaiting z).misrouted n serial).Held x .misroute ∧ ((d.releaseAwaiting z).misrouted n serial).Held r .misroute := by
  obtain ⟨y, rest, same⟩ := h.mine
  obtain ⟨w, w_rest, w_same⟩ := h.carrier
  exact ⟨((w_rest.releaseAwaiting (heldStill w_same nofun) z).misrouted n serial).held w_same,
    ((rest.releaseAwaiting (heldStill same nofun) z).misrouted n serial).held same⟩

/-- The jacket that awaited the carrier is freed of it (R88). -/
theorem CarrierHeld.freed (h : CarrierHeld c d r x) (routed : x.state = .routed) (awaiting : (c.jacket m).state = .awaiting) :
    c.Freed (d.freeAwaiting m) m ∧ (d.freeAwaiting m).Held x .misroute ∧ (d.freeAwaiting m).Held r .misroute ∧
      (((d.freeAwaiting m).jacketPass m).jacket m).awaited ≠ some x.serial := by
  have quiets := h.quiets (by rw [routed]; decide)
  have freed := quiets.freed awaiting
  obtain ⟨y, rest, same⟩ := h.mine
  obtain ⟨w, w_rest, w_same⟩ := h.carrier
  have serial : w.serial = x.serial := by rw [eq_of_bare w_same.symm]
  refine ⟨freed, (w_rest.freeAwaiting m).held w_same, (rest.freeAwaiting m).held same, ?_⟩
  rw [← serial]
  refine (w_rest.freeAwaiting m).notAwaited (heldStill w_same nofun) ?_ m
  rw [freed.1]
  exact nofun

/-- Settles O21: the record is loaded, or it is held, and with it the one that came in its place. -/
theorem arrivalsAtAJacket : Obligations.ArrivalsAtAJacket := by
  refine ⟨fun s h p serial n size r hears role read sound awaiting awaits serves here free moving zero => ?_,
    fun s h p serial n size r hears role read sound awaiting awaits serves here free holding => ?_,
    fun s h p serial n size hears role read => ?_⟩
  all_goals have run := exec_jacketArrival hears role
  all_goals rw [read, Option.elim_some] at run
  · obtain ⟨⟨r', there, record⟩, jacket⟩ :=
      arrival_starts (c := heard s.part h 4 p) sound here free awaiting awaits serves moving zero
    obtain ⟨testing, attempts, none⟩ := record
    exact ⟨_, r', run, there, testing, attempts, none, jacket⟩
  · obtain ⟨⟨r', there, record⟩, jacket⟩ :=
      arrival_holds (c := heard s.part h 4 p) sound here free awaiting awaits serves holding
    obtain ⟨testing, attempts, none⟩ := record
    exact ⟨_, r', run, there, testing, attempts, none, jacket⟩
  · have misroutes (awaiting : (s.part.jacket n).state = .awaiting) (wrong : (s.part.jacket n).awaited ≠ some serial) (r : Record)
        (serves : (s.part.jacket n).slot = some r.slot) : exec (.jacketArrival h p) s = .next (s.withPart
          ((((heard s.part h 4 p).holdRecord r.slot .misroute).holdCarrier serial).misrouted n serial)) := by
      rw [run, takeArrival_misroutes (c := heard s.part h 4 p) awaiting wrong serves]
    refine ⟨fun r sound awaiting wrong serves here free other => ?_,
      fun r x sound awaiting wrong serves here free routed found apart => ?_, fun other => ⟨_, run, ?_⟩⟩
    · obtain ⟨y, rest, same⟩ := misroute_holds (c := heard s.part h 4 p) sound here free other n serial
      obtain ⟨own, -, -, reported⟩ := misrouted_jacket (((heard s.part h 4 p).holdRecord r.slot .misroute).holdCarrier serial) n serial
      have fields := eq_of_bare same.symm
      have slot : y.slot = r.slot := by rw [fields]
      have there := rest.here
      rw [slot] at there
      refine ⟨_, y, misroutes awaiting wrong r serves, there, by rw [fields], by rw [fields], ?_⟩
      rw [own]
      exact ⟨rfl, rfl, rfl, rfl, reported⟩
    · intro believedElsewhere asItStood
      have carrier := (recordOf_iff sound).mp found
      have serial_eq : x.serial = serial := carrier.2
      have carried : Carried s.part ((heard s.part h 4 p).holdRecord r.slot .misroute) r x := by
        obtain ⟨⟨jackets, waiting, after, line, tables, verification⟩, held, stays, comes⟩ :=
          holdRecord_carried (c := heard s.part h 4 p) sound here free routed carrier.1 apart
        exact ⟨⟨jackets, waiting, after, line, tables, verification⟩, held, stays, comes⟩
      replace misroutes := misroutes awaiting wrong r serves
      generalize (heard s.part h 4 p).holdRecord r.slot .misroute = d at carried misroutes
      have holds (elsewhere : believedElsewhere) (unpending : x.releasePending = false) : ∃ x', x'.bare = x.bare ∧
          d.holdCarrier serial = (d.holdRecord x'.slot .misroute).releaseAwaiting x' ∧ CarrierHeld s.part (d.holdRecord x'.slot .misroute) r x := by
        obtain ⟨x', there, bare, both⟩ := carried.holds unpending free apart ((misroutes_iff _).mpr elsewhere)
        have fields := eq_of_bare bare.symm
        rw [serial_eq] at there
        refine ⟨x', bare, (holdCarrier_eq there).trans (holdMisrouted_holds ?_ ?_), both⟩
        · rw [fields]
          exact (misroutes_iff _).mpr elsewhere
        · rw [fields]
          exact unpending
      have releases {m : JacketNo} {x' : Record} (bare : x'.bare = x.bare) (state : x.state = .routed) (jacket : x.jacket = some m)
          (e : Controller) : e.releaseAwaiting x' = (e.freeAwaiting m).jacketPass m := by
        have fields := eq_of_bare bare.symm
        exact releaseAwaiting_routed (by rw [fields]; exact state) (by rw [fields]; exact jacket)
      have rests (why : x.state.misroutes = false ∨ x.releasePending = true) : d.holdCarrier serial = d := by
        refine holdCarrier_rests fun x' there => ?_
        obtain ⟨member, same⟩ := (recordOf_iff carried.quiets.sound).mp there
        rw [eq_of_bare (carried.comes x' member (.inr (same.trans serial_eq.symm))).symm]
        exact why
      have stood (x' : Record) (bare : x'.bare = x.bare) (t : Controller) (there : t.recordAt x.slot = some x') : asItStood t x' := by
        refine ⟨there, sameIdentity_of_bare bare.symm, ?_⟩
        rw [eq_of_bare bare.symm]
        exact ⟨rfl, rfl, rfl⟩
      have left (why : x.state.misroutes = false ∨ x.releasePending = true) (slot : Nat) :
          ((d.holdCarrier serial).misrouted n serial).recordAt slot = d.recordAt slot := by
        rw [rests why, Controller.recordAt, (misrouted_jacket d n serial).2.2.1]
        rfl
      refine ⟨fun elsewhere unpending => ⟨_, misroutes, ?_⟩, fun m other state unpending jacket waits => ?_,
        fun nowhere unpending => ?_, fun pending => ⟨_, misroutes, fun x' there => ?_⟩⟩
      · obtain ⟨x', bare, made, both⟩ := holds elsewhere unpending
        obtain ⟨x_held, r_held⟩ := both.after x' n serial
        obtain ⟨own, others, -, reported⟩ := misrouted_jacket ((d.holdRecord x'.slot .misroute).releaseAwaiting x') n serial
        rw [made]
        refine ⟨x_held, r_held, by rw [own], by rw [own], reported, fun m other state jacket waits => ?_⟩
        obtain ⟨freed, -, -, unawaited⟩ := both.freed state waits
        rw [others m other, releases bare state jacket]
        refine ⟨by rw [← serial_eq]; exact unawaited, fun quiet => ?_⟩
        obtain ⟨same, idle, awaited, -, slot⟩ := Freed.stays_idle freed quiet
        rw [same]
        exact ⟨idle, awaited, slot⟩
      · obtain ⟨x', bare, made, both⟩ := holds (.inr (.inr (.inr (.inl state)))) unpending
        obtain ⟨freed, x_held, r_held, -⟩ := both.freed state waits
        refine ⟨_, freed, x_held, r_held, misroutes.trans ?_⟩
        rw [made, releases bare state jacket]
        rfl
      · have no : x.state.misroutes = false := Bool.eq_false_iff.mpr fun yes => nowhere ((misroutes_iff _).mp yes)
        obtain ⟨x', there, bare⟩ := carried.stays unpending
        have member := (recordOf_iff carried.quiets.sound).mp there
        have slot : x'.slot = x.slot := (sameIdentity_of_bare bare.symm).1
        refine ⟨_, x', misroutes, stood x' bare _ ?_⟩
        rw [left (.inl no), ← slot]
        exact recordAt_of_mem carried.quiets.sound.2.2.1 member.1
      · rw [left (.inr pending)] at there
        exact stood x' (carried.comes x' (recordAt_mem there) (.inl (recordAt_slot there))) _ ((left (.inr pending) _).trans there)
    · have only := raise_onlyPlaces (heard s.part h 4 p) .strayReport serial (6 * 16 + 2)
      rw [takeArrival_strays (c := heard s.part h 4 p) other]
      exact ⟨only.records, only.jackets, raise_reported _ _ _ _⟩

end Sys2Proof.Machine
end

section
/-! SUPPORT. Records of samples (O23, R100, R101, R104 to R106, R122). -/
namespace Sys2Proof.Machine

variable {c d : Controller} {n m : JacketNo} {b : Block} {x : Sample} {g : Jacket}

/-! ### A jacket's context replaced -/

/-- The part whose jacket has this context. -/
def Controller.setJacket (c : Controller) (n : JacketNo) (g : Jacket) : Controller := c.updJacket n fun _ => g

@[simp] theorem setJacket_jacket (c : Controller) (n : JacketNo) (g : Jacket) : (c.setJacket n g).jacket n = g :=
  (jacket_updJacket _ _ _ _).trans (if_pos rfl)

@[simp] theorem updJacket_setJacket (c : Controller) (n : JacketNo) (g : Jacket) (f : Jacket → Jacket) :
    (c.setJacket n g).updJacket n f = c.setJacket n (f g) := by
  rw [Controller.setJacket, updJacket_updJacket, Controller.setJacket]

theorem updJacket_eq_setJacket (c : Controller) (n : JacketNo) (f : Jacket → Jacket) : c.updJacket n f = c.setJacket n (f (c.jacket n)) :=
  updJacket_congr rfl

theorem setJacket_own (c : Controller) (n : JacketNo) : c.setJacket n (c.jacket n) = c := updJacket_same rfl

theorem setJacket_block : (c.setJacket n g).currentBlock n = c.tables.blockAt g.currentBlock := currentBlock_updJacket

/-! ### A sample accumulated (R100, R101) -/

theorem accumulate_few (few : g.acc.samples + 1 < b.samples) :
    (c.setJacket n g).accumulate n b x = c.setJacket n { g with acc := g.acc.add x } := by
  rw [Controller.accumulate]
  rw [updJacket_setJacket, setJacket_jacket]
  exact if_neg (Nat.not_le.mpr few)

theorem accumulate_full (full : b.samples ≤ g.acc.samples + 1) :
    (c.setJacket n g).accumulate n b x = (c.setJacket n { g with acc := g.acc.add x }).completeRecord n b := by
  rw [Controller.accumulate]
  rw [updJacket_setJacket, setJacket_jacket]
  exact if_pos full

theorem completeRecord_eq : (c.setJacket n g).completeRecord n b =
    if g.settled b (recordMeans g.acc b.samples) then
      (c.setJacket n (g.countRecord b (recordMeans g.acc b.samples))).settle n b (recordMeans g.acc b.samples)
    else if b.maxCount ≤ g.recordsCompleted + 1 then
      (c.setJacket n (g.countRecord b (recordMeans g.acc b.samples))).earlyEnd n .unstable
    else c.setJacket n { g.countRecord b (recordMeans g.acc b.samples) with lastMeans := some (recordMeans g.acc b.samples), acc := .clear } := by
  rw [Controller.completeRecord]
  dsimp only
  rw [setJacket_jacket, updJacket_setJacket, setJacket_jacket, updJacket_setJacket]
  rfl

theorem isReadingHold_iff : b.isReadingHold = true ↔ b.kind = .hold ∧ b.reading = true := by
  rw [Block.isReadingHold, Bool.and_eq_true, beq_iff_eq]

theorem countRecord_eq (b : Block) (means : Means) (g : Jacket) : g.countRecord b means = { g with
    recordsCompleted := g.recordsCompleted + 1
    firstPressure := if b.kind = .hold ∧ b.reading = true ∧ g.recordsCompleted = 0 then some means.pressure else g.firstPressure } := by
  rw [Jacket.countRecord]
  congr 1
  exact if_congr (by rw [isReadingHold_iff, and_assoc]) rfl rfl

/-! ### A sample by the kind of its block (R102, R104 to R106) -/

/-- The context with the settle start that the first low sample of a VENT sets (R105). -/
def Jacket.ventStarted (b : Block) (g : Jacket) : Jacket :=
  { g with settleStart := if b.kind = .vent ∧ g.settleStart = none then some g.elapsed else g.settleStart }

section Kinds
variable (block : c.tables.blockAt g.currentBlock = b)
include block

theorem blockSample_accumulates (takes : b.kind = .hold ∨ (b.kind = .zero ∧ x.pressure ≤ c.line.items.zeroThreshold) ∨
      (b.kind = .vent ∧ (g.settleStart ≠ none ∨ x.pressure ≤ c.line.items.zeroThreshold))) :
    (c.setJacket n g).blockSample n x = (c.setJacket n (g.ventStarted b)).accumulate n b x := by
  have unvented (other : b.kind ≠ .vent) : g.ventStarted b = g := by
    rw [Jacket.ventStarted, if_neg fun both => other both.1]
  rw [Controller.blockSample]
  rw [setJacket_block, block]
  rcases takes with hold | ⟨zero, low⟩ | ⟨vent, starts⟩
  · rw [unvented (by rw [hold]; decide), hold]
  · rw [unvented (by rw [zero]; decide), zero]
    exact if_pos (decide_eq_true low)
  · rw [vent, setJacket_jacket]
    dsimp only
    by_cases unset : g.settleStart = none
    · have low := starts.resolve_left (not_not.mpr unset)
      rw [if_neg (by rw [unset]; decide), if_pos (decide_eq_true (show x.pressure ≤ (c.setJacket n g).line.items.zeroThreshold from low)),
        updJacket_setJacket, Jacket.ventStarted, if_pos ⟨vent, unset⟩]
    · rw [if_pos (Option.isSome_iff_ne_none.mpr unset), Jacket.ventStarted, if_neg fun both => unset both.2]

theorem blockSample_zeroHigh (zero : b.kind = .zero) (high : ¬x.pressure ≤ c.line.items.zeroThreshold) :
    (c.setJacket n g).blockSample n x = c.setJacket n { g with acc := .clear } := by
  rw [Controller.blockSample]
  rw [setJacket_block, block, zero, updJacket_setJacket]
  exact if_neg (by rw [decide_eq_true_iff]; exact high)

theorem blockSample_ventHigh (vent : b.kind = .vent) (unset : g.settleStart = none) (high : ¬x.pressure ≤ c.line.items.zeroThreshold) :
    (c.setJacket n g).blockSample n x = c.setJacket n g := by
  rw [Controller.blockSample]
  rw [setJacket_block, block, vent, setJacket_jacket]
  dsimp only
  rw [if_neg (by rw [unset]; decide)]
  exact if_neg (by rw [decide_eq_true_iff]; exact high)

theorem blockSample_dwell (dwell : b.kind = .dwell) : (c.setJacket n g).blockSample n x = c.setJacket n g := by
  rw [Controller.blockSample]
  rw [setJacket_block, block, dwell]

end Kinds

/-! ### Means and settling (R101, R122) -/

theorem divRound_le {sum samples : Nat} (some : 1 ≤ samples) (small : sum ≤ samples * 65535) : divRound sum samples ≤ 65535 := by
  have below : (sum + samples / 2) / samples < 65536 := (Nat.div_lt_iff_lt_mul some).mpr (by omega)
  exact Nat.lt_succ_iff.mp below

theorem magnitude_le_iff {a b k : Nat} : magnitude a b ≤ k ↔ a ≤ b + k ∧ b ≤ a + k := by
  rw [← Nat.not_lt, lt_magnitude_iff, not_or, Nat.not_lt, Nat.not_lt]

theorem settled_iff (g : Jacket) (b : Block) (means : Means) : g.settled b means = true ↔
    ∃ start last, g.settleStart = some start ∧ g.lastMeans = some last ∧ b.duration * 100 ≤ g.elapsed - start ∧
      means.level ≤ last.level + b.band ∧ last.level ≤ means.level + b.band := by
  rw [Jacket.settled]
  cases starts : g.settleStart with
  | none => exact ⟨nofun, nofun⟩
  | some start =>
    cases lasts : g.lastMeans with
    | none => exact ⟨nofun, nofun⟩
    | some last =>
      dsimp only
      rw [Bool.and_eq_true, decide_eq_true_iff, decide_eq_true_iff, magnitude_le_iff]
      constructor
      · exact fun both => ⟨start, last, rfl, rfl, both⟩
      · rintro ⟨_, _, ⟨⟩, ⟨⟩, both⟩
        exact both

theorem takeSample_rests (calm : (c.jacket n).state.pressing = false) (x : Sample) : c.takeSample n x = c := by
  rw [Controller.takeSample]
  split
  · next running =>
    rw [running] at calm
    cases calm
  · next recovering =>
    rw [recovering] at calm
    cases calm
  · rfl

/-- Settles O23: each kind of block, the record that a sample completes, and the means. -/
theorem recordsOfSamples : Obligations.RecordsOfSamples := by
  refine ⟨fun s h p x n size hears role read => ?_, fun a samples some _ => ⟨rfl, divRound_le some, divRound_le some, divRound_le some⟩,
    settled_iff⟩
  intro j b low summed leaves
  have run := exec_jacketSample hears role read
  let placed := s.part.placeForward ({ header := h, kind := 5, payload := p } : Frame).wire
  have leave {g : Jacket} (goes : exec (.jacketSample h p) s = .next (s.withPart (placed.setJacket n g))) : leaves g :=
    ⟨_, goes, setJacket_jacket _ _ _, fun m other => (jacket_updJacket _ _ _ _).trans (if_neg other), rfl, rfl, rfl, rfl⟩
  have taken {k : BlockKind} (running : j.state = .running k) (within : x.pressure ≤ (s.part.servedSpec n).pressureLimit) :
      exec (.jacketSample h p) s = .next (s.withPart ((placed.setJacket n { j with sampleAge := 0 }).blockSample n x)) := by
    rw [run, takeSample_within (c := s.part.placeForward _) running within, updJacket_eq_setJacket]
    rfl
  have block : placed.tables.blockAt ({ j with sampleAge := 0 } : Jacket).currentBlock = b := rfl
  refine ⟨fun k running within => ⟨fun few => ?_, fun zero high => ?_, fun vent unset high => ?_, fun dwell => ?_⟩, fun calm => ?_, ?_⟩
  · have adds (takes : b.kind = .hold ∨ (b.kind = .zero ∧ low) ∨ (b.kind = .vent ∧ (j.settleStart ≠ none ∨ low))) :
        leaves { ({ j with sampleAge := 0 } : Jacket).ventStarted b with acc := summed } := by
      refine leave ((taken running within).trans ?_)
      rw [blockSample_accumulates block takes, accumulate_few (g := ({ j with sampleAge := 0 } : Jacket).ventStarted b) few]
      rfl
    refine ⟨fun hold => ?_, fun zero islow => ?_, fun vent set => ?_, fun vent unset islow => ?_⟩
    · have left := adds (.inl hold)
      rw [Jacket.ventStarted, if_neg fun both => by rw [hold] at both; cases both.1] at left
      exact left
    · have left := adds (.inr (.inl ⟨zero, islow⟩))
      rw [Jacket.ventStarted, if_neg fun both => by rw [zero] at both; cases both.1] at left
      exact left
    · have left := adds (.inr (.inr ⟨vent, .inl set⟩))
      rw [Jacket.ventStarted, if_neg fun both => set both.2] at left
      exact left
    · have left := adds (.inr (.inr ⟨vent, .inr islow⟩))
      rw [Jacket.ventStarted, if_pos ⟨vent, unset⟩] at left
      exact left
  · exact leave ((taken running within).trans (by rw [blockSample_zeroHigh block zero high]))
  · exact leave ((taken running within).trans (by rw [blockSample_ventHigh block vent unset high]))
  · exact leave ((taken running within).trans (by rw [blockSample_dwell block dwell]))
  · refine leave (run.trans ?_)
    rw [takeSample_rests (c := s.part.placeForward _) calm]
    exact congrArg (fun d => Host.Outcome.next (s.withPart d)) (setJacket_own placed n).symm
  · intro means most begun counted k running within full takes
    have completes : exec (.jacketSample h p) s = .next (s.withPart ((placed.setJacket n { begun with acc := summed }).completeRecord n b)) := by
      rw [taken running within, blockSample_accumulates block takes,
        accumulate_full (g := ({ j with sampleAge := 0 } : Jacket).ventStarted b) full]
      rfl
    have record := completeRecord_eq (c := placed) (n := n) (b := b) (g := { begun with acc := summed })
    have counts : ({ begun with acc := summed } : Jacket).countRecord b means = counted := countRecord_eq b means _
    rw [record] at completes
    change exec _ s = .next (s.withPart (if begun.settled b means then
      (placed.setJacket n (({ begun with acc := summed } : Jacket).countRecord b means)).settle n b means
      else if most ≤ j.recordsCompleted + 1 then
        (placed.setJacket n (({ begun with acc := summed } : Jacket).countRecord b means)).earlyEnd n .unstable
      else placed.setJacket n
        { ({ begun with acc := summed } : Jacket).countRecord b means with lastMeans := some means, acc := .clear })) at completes
    rw [counts] at completes
    refine ⟨fun unsettled few => ?_, fun unsettled many => ?_, fun settled => ?_⟩
    · rw [if_neg (ne_true_of_eq_false unsettled), if_neg (Nat.not_le.mpr few)] at completes
      exact leave completes
    · rw [if_neg (ne_true_of_eq_false unsettled), if_pos many] at completes
      obtain ⟨owed, jacket⟩ := earlyEnd_jacket (placed.setJacket n counted) n .unstable
      rw [setJacket_jacket] at jacket
      refine ⟨_, completes, ?_⟩
      rw [jacket]
      exact ⟨rfl, rfl, rfl, rfl, rfl, rfl, earlyEnd_commanded _ n .unstable⟩
    · rw [if_pos settled] at completes
      exact completes

end Sys2Proof.Machine
end

section
/-! SUPPORT. The jackets at a RESUME (R97, R116, R173). -/
namespace Sys2Proof.Machine

variable {c d e : Controller} {n m : JacketNo} {r x y : Record} {slot : Nat}

/-! ### A jacket apart from a change (R94) -/

/-- A jacket is the same but for the command it owes. -/
def SameAt (k : JacketNo) (c d : Controller) : Prop := d.jacket k = { c.jacket k with owedCommand := (d.jacket k).owedCommand }

theorem SameAt.refl {k : JacketNo} : SameAt k c c := rfl

theorem SameAt.trans {k : JacketNo} (h : SameAt k c d) (g : SameAt k d e) : SameAt k c e := by
  rw [SameAt, g, h]

theorem updJacket_sameAt {k : JacketNo} (other : k ≠ m) (f : Jacket → Jacket) : SameAt k c (c.updJacket m f) := by
  rw [SameAt, jacket_updJacket, if_neg other]

theorem startProgram_sameAt {k : JacketNo} (other : k ≠ m) (c : Controller) : SameAt k c (c.startProgram m) :=
  startProgram_keep (P := SameAt k c) (fun _ f h => h.trans (updJacket_sameAt other f)) (fun d x h => h.trans (offerCommand_sameButOwed d m x k))
    (fun d h => h.trans (makeVent_sameButOwed d m k)) rfl

/-- A program start leaves its jacket its cylinder. -/
theorem startProgram_slot (c : Controller) (m : JacketNo) : ((c.startProgram m).jacket m).slot = (c.jacket m).slot := by
  have kept := enterBlock_kept ((c.countAttempt m).updJacket m Jacket.beginProgram) m
  rw [jacket_updJacket, if_pos rfl] at kept
  exact congrArg (fun k => k.2.2.2.2.1) kept

theorem startProgram_tables (c : Controller) (m : JacketNo) : (c.startProgram m).tables = c.tables :=
  startProgram_keep (P := fun d => d.tables = c.tables) (fun _ _ h => h) (fun d x h => (offerCommand_serves d m x).tables.trans h)
    (fun d h => (makeVent_serves d m).tables.trans h) rfl

theorem startProgram_stands {p : Record → Prop} (bare : ∀ {r x : Record}, r.bare = x.bare → p r → p x) (h : Stands slot p (c.countAttempt m)) :
    Stands slot p (c.startProgram m) :=
  startProgram_keep (fun d _ h => Stands.of_records (c := d) rfl h) (fun d x h => (offerCommand_serves d m x).stands bare h)
    (fun d h => (makeVent_serves d m).stands bare h) h

/-! ### A jacket resumed (R116) -/

theorem jacketResume_vented (vented : (c.jacket n).state = .heldVented) : c.jacketResume n = c.startProgram n := by
  rw [Controller.jacketResume, vented]

theorem jacketResume_recovering (recovering : (c.jacket n).state = .recovering .hold) :
    c.jacketResume n = c.updJacket n fun j => { j with restartPending := true } := by
  rw [Controller.jacketResume, recovering]

/-- What the resume of a jacket keeps: a program start keeps it, and so does the restart mark. -/
theorem jacketResume_keep {P : Controller → Prop} (starts : P (c.startProgram m))
    (restarts : P (c.updJacket m fun j => { j with restartPending := true })) (h : P c) : P (c.jacketResume m) := by
  unfold Controller.jacketResume
  split
  · exact starts
  · exact restarts
  · exact h

/-- What the resumes of the other jackets leave of a jacket, and of the record in a slot that only it serves. -/
structure Aside (n : JacketNo) (slot : Nat) (c d : Controller) : Prop where
  own : SameAt n c d
  slots : ∀ k : JacketNo, (d.jacket k).slot = (c.jacket k).slot
  tables : d.tables = c.tables
  stands : slot ≠ Config.registerCapacity → (∀ k : JacketNo, k ≠ n → (c.jacket k).slot ≠ some slot) →
    ∀ p : Record → Prop, (∀ {r x : Record}, r.bare = x.bare → p r → p x) → Stands slot p c → Stands slot p d

theorem Aside.refl (c : Controller) : Aside n slot c c := ⟨rfl, fun _ => rfl, rfl, fun _ _ _ _ h => h⟩

theorem Aside.trans (h : Aside n slot c d) (g : Aside n slot d e) : Aside n slot c e where
  own := h.own.trans g.own
  slots k := (g.slots k).trans (h.slots k)
  tables := g.tables.trans h.tables
  stands capacity apart p bare stood := g.stands capacity (fun k other => by rw [h.slots]; exact apart k other) p bare (h.stands capacity apart p bare stood)

theorem startProgram_aside (other : m ≠ n) (c : Controller) : Aside n slot c (c.startProgram m) where
  own := startProgram_sameAt other.symm c
  slots k := by
    by_cases same : k = m
    · rw [same, startProgram_slot]
    · rw [startProgram_sameAt same c]
  tables := startProgram_tables c m
  stands capacity apart p bare stood := by
    refine startProgram_stands bare ?_
    have elsewhere : slot ≠ c.servedSlot m := by
      rw [Controller.servedSlot]
      cases serves : (c.jacket m).slot with
      | none => exact capacity
      | some s => exact fun same => apart m other (by rw [serves]; exact congrArg some same.symm)
    obtain ⟨distinct, y, here, free, holds⟩ := stood
    refine ⟨?_, y, ?_, free, holds⟩
    · rw [Controller.SlotsDistinct, Controller.countAttempt,
        map_updRecord c _ (fun r => { r with attempts := min 255 (r.attempts + 1) }) Record.slot fun _ => rfl]
      exact distinct
    · rw [Controller.countAttempt, recordAt_updRecord_other c elsewhere (f := fun r => { r with attempts := min 255 (r.attempts + 1) }) fun _ => rfl]
      exact here

theorem jacketResume_aside (other : m ≠ n) (c : Controller) : Aside n slot c (c.jacketResume m) := by
  refine jacketResume_keep (startProgram_aside other c) ⟨updJacket_sameAt other.symm _, fun k => ?_, rfl,
    fun _ _ _ _ h => Stands.of_records (c := c) rfl h⟩ (.refl c)
  rw [jacket_updJacket]
  split
  · next same => rw [same]
  · rfl

/-- The resumes in number order, as the turn of one jacket sees them. -/
theorem jacketResumes_at (c : Controller) (n : JacketNo) (slot : Nat) :
    ∃ x, Aside n slot c x ∧ Aside n slot (x.jacketResume n) (jacketNumbers.foldl Controller.jacketResume c) :=
  foldl_at (R := Aside n slot) Aside.refl Aside.trans (fun c _ other => jacketResume_aside other c) c

/-! ### A jacket that is not IDLE through the passes (R81) -/

theorem jacketPass_sameAt (busy : (c.jacket n).state ≠ .idle) (m : JacketNo) : SameAt n c (c.jacketPass m) := by
  refine jacketPass_keep (P := SameAt n c) (fun a x chosen h => h.trans ?_) (fun a x _ h => h.trans ?_) rfl
  · have other : n ≠ m := by
      rintro rfl
      obtain ⟨-, -, -, eligible⟩ := recordFor_waits chosen
      obtain ⟨idle, -⟩ := (eligible_iff a n x).mp eligible
      rw [h] at idle
      exact busy idle
    have placed : SameAt n a (a.assigned x m) :=
      updJacket_sameAt (c := a.updRecord x.slot fun r => { r with state := .routed, jacket := some m }) other _
    exact placed.trans ((makeOrders_serves (a.assigned x m) x.slot [.gate (.jacket m)]).jackets n)
  · have diverted := (makeOrders_serves (a.updRecord x.slot fun r => { r with verdict := some (.manual .program), state := .leaving }) x.slot
      [.gate .manual]).jackets n
    exact SameAt.trans (d := a.divert x.slot (.manual .program) .manual) diverted ((raise_serves _ _ _ _).jackets n)

theorem jacketPasses_sameAt (busy : (c.jacket n).state ≠ .idle) : SameAt n c c.jacketPasses :=
  foldl_keep (p := SameAt n c) (fun x m h => h.trans (jacketPass_sameAt (by rw [h]; exact busy) m)) jacketNumbers c rfl

theorem jacketPasses_stands {p : Record → Prop} (enduring : Enduring p) (h : Stands slot p c) : Stands slot p c.jacketPasses :=
  foldl_keep (p := Stands slot p) (fun _ m h => jacketPass_stands enduring h m) jacketNumbers c h

/-! ### A line whose register does not empty (R58, R171) -/

/-- The line keeps its state through every change but those of Line Control while the register holds a record. -/
theorem Changes.line_of_held (h : Changes c d) (held : d.records ≠ []) : d.line = c.line := by
  refine (h.keep (p := fun x => x.line = c.line ∨ x.records = []) (fun a b step same => ?_) (.inl rfl)).resolve_right held
  cases step with
  | drained stops => exact .inr stops.2
  | record slot f identity => exact same.imp_right fun empty => by rw [Controller.updRecord, empty]; rfl
  | drop slot => exact same.imp_right fun empty => by rw [empty]; rfl
  | _ => exact same

end Sys2Proof.Machine
end

section
/-! SUPPORT. RESUME (O36, R116, R173). -/
namespace Sys2Proof.Machine

variable {c d t : Controller} {n m : JacketNo} {r x y : Record} {slot : Nat} {h : Header}

/-! ### The hold-from state taken (R173) -/

/-- The part whose line has left HOLDING for its hold-from state. -/
def Controller.left (c : Controller) : Controller := { c with line := { c.line with state := c.line.holdFrom, holdFrom := .stopped } }

/-- The part at the turn of the jackets: the mark is judged, and the owed arbitration has run. -/
def Controller.turned (c : Controller) : Controller := (c.left.judge false).arbitrate

theorem turned_serves (c : Controller) : Serves c.left c.turned := (judge_serves false _).trans (arbitrate_serves _)

theorem turned_settles (c : Controller) : Settles c.left c.turned := (judge_settles false _).trans (arbitrate_settles _)

theorem turned_judged (c : Controller) : c.turned.Judged := (arbitrate_settles _).judged (judge_judged false c.left)

section Accepts
variable (holding : c.line.state = .holding) (free : c.line.causeLineHold = false ∧ c.line.causeRing = false)
include holding free

theorem resumeLine_checks : c.resumeLine =
    .ok (if ((c.resumeState.judge false).arbitrate).lineMoving then
      (jacketNumbers.foldl Controller.jacketResume (c.resumeState.judge false).arbitrate).jacketPasses
    else (c.resumeState.judge false).arbitrate) := by
  rw [Controller.resumeLine, if_neg (not_not.mpr holding), if_neg]
  rw [free.1, free.2]
  decide

variable (stays : c.line.holdFrom ≠ .stopping ∨ c.records ≠ [])
include stays

omit holding free in
theorem resumeState_left : c.resumeState = c.left := if_neg fun both => stays.elim (fun h => h both.1) fun h => h both.2

theorem resumeLine_moves (moves : c.turned.lineMoving = true) :
    c.resumeLine = .ok (jacketNumbers.foldl Controller.jacketResume c.turned).jacketPasses := by
  rw [resumeLine_checks holding free, resumeState_left stays]
  exact congrArg Except.ok (if_pos moves)

theorem resumeLine_stands (still : c.turned.lineMoving = false) : c.resumeLine = .ok c.turned := by
  rw [resumeLine_checks holding free, resumeState_left stays]
  exact congrArg Except.ok (if_neg (ne_true_of_eq_false still))

end Accepts

/-- The jackets and the passes of a line that moves again. -/
def Controller.resumed (c : Controller) : Controller := (jacketNumbers.foldl Controller.jacketResume c.turned).jacketPasses

theorem resumed_settles (c : Controller) : Settles c.left c.resumed :=
  ((turned_settles c).trans (foldl_settles jacketResume_settles _ _)).trans (jacketPasses_settles _)

theorem resumed_judged (c : Controller) : c.resumed.Judged :=
  ((foldl_settles jacketResume_settles _ _).trans (jacketPasses_settles _)).judged (turned_judged c)

/-- What the resume leaves of a jacket, from what its own turn makes of it. -/
theorem resumed_jacket (n : JacketNo) : ∃ x, SameAt n c x ∧ x.tables = c.tables ∧
    (((x.jacketResume n).jacket n).state ≠ .idle → SameAt n (x.jacketResume n) c.resumed) := by
  obtain ⟨x, before, after⟩ := jacketResumes_at c.turned n 0
  have turned : SameAt n c c.turned := (turned_serves c).jackets n
  refine ⟨x, turned.trans before.own, before.tables.trans (turned_serves c).tables, fun busy => ?_⟩
  exact after.own.trans (jacketPasses_sameAt (by rw [after.own]; exact busy))

/-- A jacket in HELD_VENTED starts its program (R116). -/
theorem resumed_starts (vented : (c.jacket n).state = .heldVented) (zero : (c.tables.blockAt (c.jacket n).programStart).kind = .zero) :
    (c.resumed.jacket n).state = .running .zero ∧ (c.resumed.jacket n).currentBlock = (c.jacket n).programStart := by
  obtain ⟨x, same, tables, after⟩ := resumed_jacket (c := c) n
  have starts : x.jacketResume n = x.startProgram n := jacketResume_vented (by rw [same]; exact vented)
  obtain ⟨state, block, -⟩ := startProgram_jacket (c := x) (n := n) (by rw [tables, same]; exact zero)
  rw [starts] at after
  rw [after (by rw [state]; decide)]
  refine ⟨state, block.trans ?_⟩
  rw [same]

/-- A jacket that still recovers from the hold restarts when it has vented (R116). -/
theorem resumed_restarts (recovering : (c.jacket n).state = .recovering .hold) :
    (c.resumed.jacket n).state = .recovering .hold ∧ (c.resumed.jacket n).restartPending = true := by
  obtain ⟨x, same, -, after⟩ := resumed_jacket (c := c) n
  have marks : (x.jacketResume n).jacket n = { x.jacket n with restartPending := true } := by
    rw [jacketResume_recovering (by rw [same]; exact recovering), jacket_updJacket, if_pos rfl]
  have state : (x.jacket n).state = .recovering .hold := by
    rw [same]
    exact recovering
  rw [after (by rw [marks]; exact fun idle => nomatch state.symm.trans idle), marks]
  exact ⟨state, rfl⟩

/-- A record that has been tried this often. -/
def Record.Tried (r : Record) (attempts : Nat) (x : Record) : Prop := r.SameIdentity x ∧ x.attempts = attempts

theorem tried_bare {attempts : Nat} {x z : Record} (same : x.bare = z.bare) (tried : r.Tried attempts x) : r.Tried attempts z :=
  ⟨tried.1.trans (sameIdentity_of_bare same), by rw [eq_of_bare same]; exact tried.2⟩

theorem tried_enduring (attempts : Nat) : Enduring (r.Tried attempts) := ⟨tried_bare, fun _ tried => tried, fun tried => tried⟩

theorem stands_left {p : Record → Prop} (stood : Stands slot p c) : Stands slot p c.left := Stands.of_records (c := c) rfl stood

theorem turned_stands {p : Record → Prop} (bare : ∀ {r x : Record}, r.bare = x.bare → p r → p x) (stood : Stands slot p c) :
    Stands slot p c.turned := (turned_serves c).stands bare (stands_left stood)

/-- The record of a jacket in HELD_VENTED that no other jacket serves is tried once more (R116). -/
theorem resumed_counts (sound : c.RegisterSound) (vented : (c.jacket n).state = .heldVented) (serves : (c.jacket n).slot = some r.slot)
    (here : c.recordAt r.slot = some r) (free : r.releasePending = false) (alone : ∀ k : JacketNo, k ≠ n → (c.jacket k).slot ≠ some r.slot) :
    ∃ r', c.resumed.recordAt r.slot = some r' ∧ r.SameIdentity r' ∧ r'.attempts = min 255 (r.attempts + 1) := by
  have low : r.slot ≠ Config.registerCapacity := Nat.ne_of_lt (sound.2.2.2 r (recordAt_mem here))
  have start : Stands r.slot (r.Tried r.attempts) c.turned := turned_stands tried_bare ⟨sound.2.2.1, r, here, free, sameIdentity_refl r, rfl⟩
  have slots (k : JacketNo) : (c.turned.jacket k).slot = (c.jacket k).slot := by
    rw [(turned_serves c).jackets k]
    rfl
  obtain ⟨x, before, after⟩ := jacketResumes_at c.turned n r.slot
  have waits := before.stands low (fun k other => by rw [slots]; exact alone k other) _ tried_bare start
  have same : SameAt n c x := SameAt.trans ((turned_serves c).jackets n) before.own
  have x_slots (k : JacketNo) : (x.jacket k).slot = (c.jacket k).slot := (before.slots k).trans (slots k)
  have starts : x.jacketResume n = x.startProgram n := jacketResume_vented (by rw [same]; exact vented)
  have counted : Stands r.slot (r.Tried (min 255 (r.attempts + 1))) (x.countAttempt n) := by
    obtain ⟨distinct, y, there, unpending, identity, attempts⟩ := waits
    have y_slot := recordAt_slot there
    rw [← y_slot] at there
    refine ⟨?_, { y with attempts := min 255 (y.attempts + 1) }, ?_, unpending, identity, by rw [attempts]⟩
    · rw [Controller.SlotsDistinct, Controller.countAttempt,
        map_updRecord x _ (fun r => { r with attempts := min 255 (r.attempts + 1) }) Record.slot fun _ => rfl]
      exact distinct
    · rw [← y_slot]
      exact countAttempt_record (by rw [x_slots, y_slot]; exact serves) there
  have started := startProgram_stands tried_bare counted
  rw [← starts] at started
  have other_slots : ∀ k : JacketNo, k ≠ n → ((x.jacketResume n).jacket k).slot ≠ some r.slot := fun k other => by
    rw [starts, startProgram_sameAt other x]
    exact fun same_slot => alone k other ((x_slots k).symm.trans same_slot)
  obtain ⟨-, r', at_slot, -, identity, attempts⟩ :=
    jacketPasses_stands (tried_enduring _) (after.stands low other_slots _ tried_bare started)
  exact ⟨r', at_slot, identity, attempts⟩

/-- A record whose release is not pending keeps the line from stopping while it resumes (R171). -/
theorem resumed_line (sound : c.RegisterSound) (member : x ∈ c.records) (free : x.releasePending = false) :
    c.turned.line = c.left.line ∧ c.resumed.line = c.left.line := by
  have start : Stands x.slot (fun _ => True) c := ⟨sound.2.2.1, x, recordAt_of_mem sound.2.2.1 member, free, trivial⟩
  have turned := turned_stands (fun _ _ => trivial) start
  have enduring : Enduring fun _ => True := ⟨fun _ _ => trivial, fun _ _ => trivial, fun _ => trivial⟩
  have resumes : Stands x.slot (fun _ => True) (jacketNumbers.foldl Controller.jacketResume c.turned) := by
    refine foldl_keep (p := Stands x.slot fun _ => True) (fun a m h => ?_) jacketNumbers _ turned
    refine jacketResume_keep (startProgram_stands (fun _ _ => trivial) ?_) (Stands.of_records (c := a) rfl h) h
    exact h.updRecord _ (f := fun r => { r with attempts := min 255 (r.attempts + 1) }) (fun _ => ⟨rfl, rfl⟩) fun _ _ => trivial
  have passes := jacketPasses_stands enduring resumes
  have held {d : Controller} (h : Stands x.slot (fun _ => True) d) : d.records ≠ [] := by
    obtain ⟨-, r, here, -⟩ := h
    exact List.ne_nil_of_mem (recordAt_mem here)
  exact ⟨(turned_settles c).changes.line_of_held (held turned), (resumed_settles c).changes.line_of_held (held passes)⟩

/-! ### The end of a drain (R173) -/

/-- The part whose line stops at its RESUME. -/
def Controller.drainEnds (c : Controller) : Controller :=
  ({ c with line := { c.line with state := .stopped, holdFrom := .stopped } } : Controller).raise .lineStopped 0 0

theorem resumeState_ends (stopping : c.line.holdFrom = .stopping) (empty : c.records = []) : c.resumeState = c.drainEnds :=
  if_pos ⟨stopping, empty⟩

/-- With an empty register the arbitration only places frames, and every report stands but INFEED_HELD. -/
theorem arbitrateWith_reported {arb : Controller → Controller} {cls : NoticeClass} {subject cause : Nat} (empty : c.records = [])
    (other : cls ≠ .infeedHeld) (made : c.Reported cls subject cause) : (Controller.arbitrateWith arb c).Reported cls subject cause := by
  have vents := foldl_keep (p := fun x => x.records = [] ∧ x.Reported cls subject cause) (fun x n h =>
    ⟨by
      rcases offerOwedCommand_cases x true n with ⟨same, -⟩ | ⟨k, -, -, made⟩
      · rw [same]
        exact h.1
      · rw [made]
        exact (offerCommand_same x n k).2.1.trans h.1, (offerOwedCommand_adds true x n).reported other h.2⟩) jacketNumbers c ⟨empty, made⟩
  unfold Controller.arbitrateWith
  dsimp only
  generalize jacketNumbers.foldl (Controller.offerOwedCommand true) c = x at vents
  have hold := (offerOwedInfeed_heldAlone x .hold).reported (offerOwedInfeed_onlyPlaces x .hold) other vents.2
  have still : (x.offerOwedInfeed .hold).records = [] := (offerOwedInfeed_onlyPlaces x .hold).records.trans vents.1
  have free : (x.offerOwedInfeed .hold).NoPending := fun r member => by
    rw [still] at member
    cases member
  rw [still]
  exact arbitrateTail_reported (c := x.offerOwedInfeed .hold) other free hold

theorem arbitrate_reported {cls : NoticeClass} {subject cause : Nat} (empty : c.records = []) (other : cls ≠ .infeedHeld)
    (made : c.Reported cls subject cause) : c.arbitrate.Reported cls subject cause := by
  rw [Controller.arbitrate, Controller.arbitrateDepth]
  exact arbitrateWith_reported empty other made

end Sys2Proof.Machine
end

section
/-! SUPPORT. RESUME: its answer by the line's state and its causes (O36, R173). -/
namespace Sys2Proof.Machine

variable {c d t : Controller}

theorem Answered.recordAt {h : Header} {code : Nat} (answered : Answered h code d t) (slot : Nat) : t.recordAt slot = d.recordAt slot := by
  rw [Controller.recordAt, answered.records, Controller.recordAt]

theorem resumeLine_busy (other : c.line.state ≠ .holding) : c.resumeLine = .error .lineState := if_pos other

theorem resumeLine_held (holding : c.line.state = .holding) (cause : c.line.causeLineHold = true ∨ c.line.causeRing = true) :
    c.resumeLine = .error .holdActive := (if_neg (not_not.mpr holding)).trans (if_pos cause)

/-- The part at the end of a drain, once its mark is judged and its owed frames are offered. -/
def Controller.drainResumed (c : Controller) : Controller := (c.drainEnds.judge false).arbitrate

theorem drainResumed_line (c : Controller) : c.drainResumed.line = { c.line with state := .stopped, holdFrom := .stopped } := by
  have raised : c.drainEnds.line = { c.line with state := .stopped, holdFrom := .stopped } := (raise_onlyPlaces _ _ _ _).line
  have settles := (judge_settles false c.drainEnds).trans (arbitrate_settles _)
  have stopped : c.drainEnds.line.state ≠ .stopping := by
    rw [raised]
    nofun
  exact (settles.changes.line stopped).trans raised

theorem drainResumed_reported (empty : c.records = []) : c.drainResumed.Reported .lineStopped 0 0 := by
  have none : (c.drainEnds.judge false).records = [] := (judge_onlyPlaces false _).records.trans ((raise_onlyPlaces _ _ _ _).records.trans empty)
  exact arbitrate_reported none (by decide) ((judge_adds false _).reported (by decide) (raise_reported _ _ _ _))

theorem resumeLine_drained (holding : c.line.state = .holding) (free : c.line.causeLineHold = false ∧ c.line.causeRing = false)
    (stopping : c.line.holdFrom = .stopping) (empty : c.records = []) : c.resumeLine = .ok c.drainResumed := by
  have still : c.drainResumed.lineMoving = false := by
    rw [Controller.lineMoving, drainResumed_line]
    rfl
  rw [resumeLine_checks holding free, resumeState_ends stopping empty]
  exact congrArg Except.ok (if_neg (ne_true_of_eq_false still))

/-- Settles O36: the line takes its hold-from state, and the jackets resume when it moves. -/
theorem resumeTakesHoldFrom : Obligations.ResumeTakesHoldFrom := by
  intro s h takes resumes passes
  let taken := s.part.taken (manageFrame h [3, 3]).markTaken.wire
  have asked : taken.judgeRequest [3, 3] = taken.commandAnswer 3 taken.resumeLine := rfl
  have accepted {d : Controller} (ok : taken.resumeLine = .ok d) :
      ∃ t, exec (.resume h []) s = .next (s.withPart t) ∧ Answered h 3 d t := exec_accepted (i := .resume h []) rfl takes asked ok (by decide)
  have resumed {t : Controller} (answered : Answered h 3 taken.resumed t) : resumes t ∧ passes t := by
    refine ⟨fun n => ⟨fun vented zero => ?_, fun recovering => ?_, fun r sound vented serves here free alone => ?_⟩, ?_⟩
    · rw [answered.jacket]
      exact resumed_starts (c := taken) vented zero
    · rw [answered.jacket]
      exact resumed_restarts (c := taken) recovering
    · rw [answered.recordAt]
      exact resumed_counts (c := taken) sound vented serves here free alone
    · have carries := answered.carriesOn
      rw [Controller.resumed, jacketPasses_eightPasses] at carries
      exact carries
  refine ⟨fun holding line ring => ⟨fun from_ => ?_, fun stopping sound stays => ?_, fun stopping empty => ?_⟩,
    fun holding cause => exec_refused (i := .resume h []) rfl takes asked (resumeLine_held (c := taken) holding cause),
    fun other => exec_refused (i := .resume h []) rfl takes asked (resumeLine_busy (c := taken) other)⟩
  · have kept : taken.left.line.state ≠ .stopping := by
      show s.part.line.holdFrom ≠ .stopping
      rcases from_ with e | e <;> rw [e] <;> decide
    have turned : taken.turned.line = taken.left.line := (turned_settles taken).changes.line kept
    by_cases moves : s.part.line.holdFrom = .running
    · have moving : taken.turned.lineMoving = true := (lineMoving_iff _).mpr (.inl (by rw [turned]; exact moves))
      obtain ⟨t, run, answered⟩ := accepted (resumeLine_moves (c := taken) holding ⟨line, ring⟩ (.inl kept) moving)
      exact ⟨t, run, answered.line.trans ((resumed_settles taken).changes.line kept), answered.judged (resumed_judged taken),
        fun _ => resumed answered, answered.replied⟩
    · have stopped := from_.resolve_left moves
      have still : taken.turned.lineMoving = false := by
        rw [Controller.lineMoving, turned, show taken.left.line.state = .stopped from stopped]
        rfl
      obtain ⟨t, run, answered⟩ := accepted (resumeLine_stands (c := taken) holding ⟨line, ring⟩ (.inl kept) still)
      exact ⟨t, run, answered.line.trans turned, answered.judged (turned_judged taken), fun running => absurd running moves, answered.replied⟩
  · obtain ⟨x, member, free⟩ := stays
    obtain ⟨turned, after⟩ := resumed_line (c := taken) sound member free
    have left : taken.left.line = { s.part.line with state := .stopping, holdFrom := .stopped } := by
      show { s.part.line with state := s.part.line.holdFrom, holdFrom := .stopped } = _
      rw [stopping]
    have moving : taken.turned.lineMoving = true := (lineMoving_iff _).mpr (.inr (by rw [turned, left]))
    obtain ⟨t, run, answered⟩ :=
      accepted (resumeLine_moves (c := taken) holding ⟨line, ring⟩ (.inr (List.ne_nil_of_mem member)) moving)
    exact ⟨t, run, (answered.line.trans after).trans left, answered.judged (resumed_judged taken), (resumed answered).1, (resumed answered).2,
      answered.replied⟩
  · obtain ⟨t, run, answered⟩ := accepted (resumeLine_drained (c := taken) holding ⟨line, ring⟩ stopping empty)
    exact ⟨t, run, answered.line.trans (drainResumed_line taken), answered.reported (by decide) (drainResumed_reported (c := taken) empty),
      answered.replied⟩

end Sys2Proof.Machine
end

section
/-! SUPPORT. Frames placed on a line that makes nothing else (O37, R7, R17): each as far as there is room, in the order they are offered. -/
namespace Sys2Proof.Machine

variable {c d e : Controller} {n m : JacketNo} {k : Command} {b : Body} {l : List Body}

/-! ### Frames placed in their order (R7) -/

/-- The NORMAL frames of a list (R6). -/
def normals (l : List Body) : Nat := l.countP fun b => !b.urgent

theorem normalCount_eq (q : List QueueEntry) : normalCount q = normals (q.map QueueEntry.body) := by
  rw [normalCount, normals, List.countP_map]
  rfl

/-- Of these frames, in their order, as many have been placed as there was room for; of the rest only owed frames and the mark's reasons differ. -/
structure Placing (l : List Body) (c d : Controller) : Prop where
  queue : ∃ made, d.ring.queue = c.ring.queue ++ made ∧ (made.map QueueEntry.body).Sublist l ∧
    (c.ring.queue.length + l.length ≤ 16 → normalCount c.ring.queue + normals l ≤ 12 → made.map QueueEntry.body = l)
  ring : d.ring = { c.ring with queue := d.ring.queue }
  line : d.line = c.line
  records : d.records = c.records
  tables : d.tables = c.tables
  verification : d.verification = c.verification
  notices : d.notices = c.notices
  frozen : d.responder.frozen = c.responder.frozen
  value : d.mark.value = c.mark.value
  jackets : SameButOwed c d

/-- Nothing is placed, since nothing is offered. -/
theorem placing_none (ring : d.ring = c.ring) (line : d.line = c.line) (records : d.records = c.records) (tables : d.tables = c.tables)
    (verification : d.verification = c.verification) (notices : d.notices = c.notices) (frozen : d.responder.frozen = c.responder.frozen)
    (value : d.mark.value = c.mark.value) (jackets : SameButOwed c d) : Placing [] c d where
  queue := ⟨[], by rw [ring, List.append_nil], .refl _, fun _ _ => rfl⟩
  ring := by rw [ring]
  line := line
  records := records
  tables := tables
  verification := verification
  notices := notices
  frozen := frozen
  value := value
  jackets := jackets

theorem Placing.refl : Placing [] c c := placing_none rfl rfl rfl rfl rfl rfl rfl rfl .refl

theorem Placing.trans {l' : List Body} (h : Placing l c d) (g : Placing l' d e) : Placing (l ++ l') c e where
  queue := by
    obtain ⟨made, queue, sub, exact_⟩ := h.queue
    obtain ⟨made', queue', sub', exact_'⟩ := g.queue
    refine ⟨made ++ made', by rw [queue', queue, List.append_assoc], by rw [List.map_append]; exact sub.append sub', fun short few => ?_⟩
    rw [List.length_append] at short
    rw [normals, List.countP_append] at few
    have first := exact_ (by omega) (by rw [normals]; omega)
    have long := congrArg List.length first
    have many := congrArg normals first
    rw [List.length_map] at long
    rw [List.map_append, first, exact_' ?_ ?_]
    · rw [queue, List.length_append, long]
      omega
    · rw [queue, normalCount_eq, List.map_append, normals, List.countP_append]
      rw [normalCount_eq, normals] at few
      rw [normals, normals] at many
      rw [normals]
      omega
  ring := by rw [g.ring, h.ring]
  line := g.line.trans h.line
  records := g.records.trans h.records
  tables := g.tables.trans h.tables
  verification := g.verification.trans h.verification
  notices := g.notices.trans h.notices
  frozen := g.frozen.trans h.frozen
  value := g.value.trans h.value
  jackets := h.jackets.trans g.jackets

/-- A frame the line never holds back has room as far as the queue has (R7). -/
theorem hasRoom_of_short (free : b.holdSet = false) (short : c.ring.queue.length < 16) (few : normalCount c.ring.queue + normals [b] ≤ 12) :
    c.hasRoom b = true := by
  refine (hasRoom_iff c b).mpr ⟨fun held => absurd held.2 (ne_true_of_eq_false free), short, fun normal => ?_⟩
  have one : normals [b] = 1 := by
    rw [normals, List.countP_singleton, normal]
    rfl
  omega

/-- The offer of one frame: it is placed behind, or, without room, the queue stays. -/
theorem placing_one (free : b.holdSet = false) (ring : d.ring = { c.ring with queue := d.ring.queue }) (line : d.line = c.line)
    (records : d.records = c.records) (tables : d.tables = c.tables) (verification : d.verification = c.verification)
    (notices : d.notices = c.notices) (frozen : d.responder.frozen = c.responder.frozen) (value : d.mark.value = c.mark.value)
    (jackets : SameButOwed c d) (room : c.hasRoom b = true → ∃ x : QueueEntry, x.body = b ∧ d.ring.queue = c.ring.queue ++ [x])
    (full : ¬c.hasRoom b = true → d.ring.queue = c.ring.queue) : Placing [b] c d where
  queue := by
    by_cases has : c.hasRoom b = true
    · obtain ⟨x, body, queue⟩ := room has
      exact ⟨[x], queue, by rw [List.map_singleton, body], fun _ _ => by rw [List.map_singleton, body]⟩
    · refine ⟨[], by rw [full has, List.append_nil], List.nil_sublist _, fun short few => absurd (hasRoom_of_short free ?_ few) has⟩
      rw [List.length_singleton] at short
      omega
  ring := ring
  line := line
  records := records
  tables := tables
  verification := verification
  notices := notices
  frozen := frozen
  value := value
  jackets := jackets

/-! ### A line at rest (R52, R53) -/

/-- The line does not run and its mark is HELD: no judgment flips it. -/
def AtHold (c : Controller) : Prop := c.line.state ≠ .running ∧ c.mark.value = .held

theorem AtHold.judge (h : AtHold c) (freed : Bool) : c.judge freed = c.refreshReasons :=
  judge_calm (h.2.trans (wanted_of_not_running c h.1).symm) freed

theorem Placing.atHold (h : Placing l c d) (rest : AtHold c) : AtHold d := ⟨by rw [h.line]; exact rest.1, h.value.trans rest.2⟩

theorem judge_placing (rest : AtHold c) (freed : Bool) : Placing [] c (c.judge freed) := by
  rw [rest.judge]
  exact placing_none rfl rfl rfl rfl rfl rfl rfl rfl (.of_jackets rfl)

/-! ### The offers (R17, R94, R181) -/

theorem offerVent_placing (rest : AtHold c) (n : JacketNo) : Placing [.command n .vent] c (c.offerCommand n .vent) := by
  have jackets := offerCommand_sameButOwed c n .vent
  unfold Controller.offerCommand at jackets ⊢
  split at jackets
  · next room =>
    have still : AtHold ((c.enqueue (.command n .vent) (.jacket n)).updJacket n fun j => { j with owedCommand := none }) := rest
    rw [if_pos room]
    rw [still.judge] at jackets ⊢
    exact placing_one rfl rfl rfl rfl rfl rfl rfl rfl rfl jackets (fun _ => ⟨_, rfl, rfl⟩) fun full => absurd room full
  · next full =>
    rw [if_neg full]
    exact placing_one rfl rfl rfl rfl rfl rfl rfl rfl rfl jackets (fun room => absurd room full) fun _ => rfl

theorem offerHold_placing (c : Controller) : Placing [.infeed .hold] c (c.offerInfeed .hold .fresh) := by
  unfold Controller.offerInfeed
  split
  · next room => exact placing_one rfl rfl rfl rfl rfl rfl rfl rfl rfl (.of_jackets rfl) (fun _ => ⟨_, rfl, rfl⟩) fun full => absurd room full
  · next full => exact placing_one rfl rfl rfl rfl rfl rfl rfl rfl rfl (.of_jackets rfl) (fun room => absurd room full) fun _ => rfl

theorem offerReply_placing (rest : AtHold c) {r : Reply} : Placing [.reply r] c (c.setBuffer (.holding r)).offerReply := by
  have room_same : (c.setBuffer (.holding r)).hasRoom (.reply r) = c.hasRoom (.reply r) := rfl
  have made : (c.setBuffer (.holding r)).offerReply = if c.hasRoom (.reply r) then
      (((c.setBuffer (.holding r)).enqueue (.reply r) .reply).setBuffer .empty).judge false else c.setBuffer (.holding r) := rfl
  rw [made]
  split
  · next room =>
    have still : AtHold (((c.setBuffer (.holding r)).enqueue (.reply r) .reply).setBuffer .empty) := rest
    rw [still.judge]
    exact placing_one rfl rfl rfl rfl rfl rfl rfl rfl rfl (.of_jackets rfl) (fun _ => ⟨_, rfl, rfl⟩) fun full => absurd room full
  · next full => exact placing_one rfl rfl rfl rfl rfl rfl rfl rfl rfl (.of_jackets rfl) (fun room => absurd room full) fun _ => rfl

/-- The VENTs of the jackets that a test chooses, offered in number order; each turn leaves the test of the others as it was. -/
theorem vents_placing {f : Controller → JacketNo → Controller} {test : Controller → JacketNo → Bool}
    (acts : ∀ c n, test c n = true → f c n = c.offerCommand n .vent) (rests : ∀ c n, test c n = false → f c n = c)
    (apart : ∀ c n m, m ≠ n → test (c.offerCommand n .vent) m = test c m) (numbers : List JacketNo) (distinct : numbers.Nodup)
    (c : Controller) (rest : AtHold c) :
    Placing ((numbers.filter (test c)).map fun n => Body.command n .vent) c (numbers.foldl f c) := by
  induction numbers generalizing c with
  | nil => exact .refl
  | cons n l ih =>
    obtain ⟨absent, distinct⟩ := List.nodup_cons.mp distinct
    rw [List.foldl_cons]
    cases chosen : test c n with
    | false =>
      rw [rests c n chosen, List.filter_cons_of_neg (ne_true_of_eq_false chosen)]
      exact ih distinct c rest
    | true =>
      have step := offerVent_placing rest n
      rw [acts c n chosen, List.filter_cons_of_pos chosen, List.map_cons]
      have same : l.filter (test c) = l.filter (test (c.offerCommand n .vent)) :=
        List.filter_congr fun m member => (apart c n m fun e => absent (e ▸ member)).symm
      rw [same]
      exact step.trans (ih distinct _ (step.atHold rest))

end Sys2Proof.Machine
end

section
/-! SUPPORT. RESTART (O37, R17, R62, R120, R174, R177). -/
namespace Sys2Proof.Machine

variable {c d t : Controller} {n m : JacketNo} {h : Header}

/-! ### The blocks at RESTART (R17, R62, R120, R177) -/

theorem restartBlocks_jacket (c : Controller) (n : JacketNo) : c.restartBlocks.jacket n = (c.jacket n).restart := by
  simp only [Controller.restartBlocks, Controller.jacket, vector_get, Vector.getElem_map]

theorem restartBlocks_notice (c : Controller) (cls : NoticeClass) : c.restartBlocks.notice cls = (c.notice cls).restart := by
  simp only [Controller.restartBlocks, Controller.notice, vector_get, Vector.getElem_map]

/-- A jacket at RESTART owes nothing but its VENT; one under pressure recovers, any other is DISABLED and empty (R120). -/
theorem restart_spec (j : Jacket) : (j.restart.owedCommand = j.owedCommand.filter fun k => k == Command.vent) ∧ j.restart.slot = none ∧
    (j.state.pressing = true → j.restart.state = .recovering .restart) ∧
    (j.state.pressing = false → j.restart.state = .disabled ∧ j.restart.awaited = none ∧ j.restart.loaded = none) := by
  rw [Jacket.restart]
  split
  · next running => exact ⟨rfl, rfl, fun _ => rfl, fun calm => by rw [running] at calm; cases calm⟩
  · next recovering => exact ⟨rfl, rfl, fun _ => rfl, fun calm => by rw [recovering] at calm; cases calm⟩
  · next notRunning notRecovering =>
    refine ⟨rfl, rfl, fun pressing => ?_, fun _ => ⟨rfl, rfl, rfl⟩⟩
    cases state : j.state with
    | running k => exact absurd state (notRunning k)
    | recovering reason => exact absurd state (notRecovering reason)
    | _ =>
      rw [state] at pressing
      cases pressing

theorem restart_vents (j : Jacket) : (j.restart.state == .recovering .restart) = j.state.pressing := by
  obtain ⟨-, -, pressed, calm⟩ := restart_spec j
  cases pressing : j.state.pressing with
  | true => rw [pressed pressing, beq_self_eq_true]
  | false =>
    rw [(calm pressing).1]
    rfl

theorem restart_owes (j : Jacket) : (j.restart.owedCommand == some .vent) = (j.owedCommand == some .vent) := by
  rw [(restart_spec j).1]
  cases j.owedCommand with
  | none => rfl
  | some k => cases k <;> rfl

/-! ### What is offered then (R17) -/

/-- A part at RESTART: an empty register on a line at rest, and nothing owed but VENTs. -/
structure Fresh (c : Controller) : Prop where
  rest : AtHold c
  empty : c.records = []
  mark : c.mark.owed = none
  buffer : c.responder.buffer = .taken
  calm : ∀ cls, (c.notice cls).pending = false
  vents : ∀ n k, (c.jacket n).owedCommand = some k → k = .vent

theorem restartBlocks_fresh (idle : c.line.state = .stopped ∨ c.line.state = .holding) (buffer : c.responder.buffer = .taken) :
    Fresh c.restartBlocks where
  rest := by
    refine ⟨?_, rfl⟩
    show c.line.restart.state ≠ .running
    rcases c.line.restart_state with ⟨-, e⟩ | ⟨holding, e⟩ | ⟨-, e⟩ <;> rw [e]
    · rcases idle with e | e <;> rw [e] <;> decide
    · rw [holding]
      decide
    · nofun
  empty := rfl
  mark := rfl
  buffer := buffer
  calm cls := by
    rw [restartBlocks_notice]
    rfl
  vents n k owed := by
    rw [restartBlocks_jacket, (restart_spec _).1] at owed
    obtain ⟨-, vent⟩ := Option.filter_eq_some_iff.mp owed
    exact eq_of_beq vent

theorem Fresh.judge (h : Fresh c) (freed : Bool) : Fresh (c.judge freed) := by
  rw [h.rest.judge]
  exact ⟨h.rest, h.empty, h.mark, h.buffer, h.calm, h.vents⟩

theorem Fresh.offerVent (h : Fresh c) (n : JacketNo) : Fresh (c.offerCommand n .vent) := by
  have placing := offerVent_placing h.rest n
  have vents (m : JacketNo) (k : Command) (owed : ((c.offerCommand n .vent).jacket m).owedCommand = some k) : k = .vent := by
    by_cases same : m = n
    · subst same
      unfold Controller.offerCommand at owed
      split at owed
      · rw [(judge_onlyPlaces false _).jacket, jacket_updJacket, if_pos rfl] at owed
        cases owed
      · rw [jacket_updJacket, if_pos rfl] at owed
        exact (Option.some.inj owed).symm
    · rw [offerCommand_otherJacket c .vent same] at owed
      exact h.vents m k owed
  have kept : (c.offerCommand n .vent).mark.owed = c.mark.owed ∧ (c.offerCommand n .vent).responder.buffer = c.responder.buffer := by
    unfold Controller.offerCommand
    split
    · have still : AtHold ((c.enqueue (.command n .vent) (.jacket n)).updJacket n fun j => { j with owedCommand := none }) := h.rest
      rw [still.judge]
      exact ⟨rfl, rfl⟩
    · exact ⟨rfl, rfl⟩
  refine ⟨placing.atHold h.rest, placing.records.trans h.empty, kept.1.trans h.mark, kept.2.trans h.buffer, fun cls => ?_, vents⟩
  rw [Controller.notice, placing.notices]
  exact h.calm cls

theorem offerOwedCommand_vent (owed : (c.jacket n).owedCommand = some .vent) : c.offerOwedCommand true n = c.offerCommand n .vent := by
  rw [Controller.offerOwedCommand, owed]
  rfl

theorem offerOwedCommand_rests {vent : Bool} (other : ∀ k, (c.jacket n).owedCommand = some k → (k == .vent) ≠ vent) :
    c.offerOwedCommand vent n = c := by
  rcases offerOwedCommand_cases c vent n with ⟨same, -⟩ | ⟨k, owed, owes, -⟩
  · exact same
  · rw [owes_command c owed, if_neg (other k owed)] at owes
    cases owes

theorem Fresh.owedVents (h : Fresh c) : Fresh (jacketNumbers.foldl (Controller.offerOwedCommand true) c) :=
  foldl_keep (p := Fresh) (fun x n fresh => by
    by_cases owed : (x.jacket n).owedCommand = some .vent
    · rw [offerOwedCommand_vent owed]
      exact fresh.offerVent n
    · rw [offerOwedCommand_rests fun k owes vent => owed (by rw [owes, eq_of_beq vent])]
      exact fresh) jacketNumbers c h

/-- Behind the VENTs the arbitration finds nothing to offer. -/
theorem Fresh.arbitrate_eq (h : Fresh c) : c.arbitrate = jacketNumbers.foldl (Controller.offerOwedCommand true) c := by
  have fresh := h.owedVents
  rw [Controller.arbitrate, Controller.arbitrateDepth, Controller.arbitrateWith]
  generalize jacketNumbers.foldl (Controller.offerOwedCommand true) c = x at fresh
  have infeed (o : InfeedOrder) : x.offerOwedInfeed o = x := by rw [Controller.offerOwedInfeed, fresh.mark]
  have commands : jacketNumbers.foldl (Controller.offerOwedCommand false) x = x :=
    foldl_keep (p := fun y => y = x) (fun y n same => by
      rw [same]
      exact offerOwedCommand_rests fun k owed normal => by
        rw [fresh.vents n k owed] at normal
        cases normal) jacketNumbers x rfl
  have reply : x.offerReply = x := by rw [Controller.offerReply, fresh.buffer]
  have notices : x.offerNotices = x :=
    foldl_keep (p := fun y => y = x) (fun y cls same => by
      rw [same]
      exact if_neg fun placeable => absurd ((noticePlaceable_iff x cls).mp placeable).1 (ne_true_of_eq_false (fresh.calm cls))) noticeClasses x rfl
  rw [infeed, fresh.empty]
  show ((jacketNumbers.foldl (Controller.offerOwedCommand false) x).offerOwedInfeed .release).offerReply.offerNotices = x
  rw [commands, infeed, reply, notices]

theorem arbitrate_placing (h : Fresh c) :
    Placing ((jacketNumbers.filter fun n => (c.jacket n).owedCommand == some .vent).map fun n => Body.command n .vent) c c.arbitrate := by
  rw [h.arbitrate_eq]
  refine vents_placing (test := fun c n => (c.jacket n).owedCommand == some .vent) (fun c n owed => offerOwedCommand_vent (eq_of_beq owed))
    (fun c n other => ?_) (fun c n m apart => ?_) jacketNumbers (by decide) c h.rest
  · refine offerOwedCommand_rests fun k owes vent => ?_
    rw [owes, eq_of_beq vent] at other
    cases other
  · rw [offerCommand_otherJacket c .vent apart]

theorem restartVent_placing (rest : AtHold c) : Placing ((jacketNumbers.filter fun n => (c.jacket n).state == .recovering .restart).map
    fun n => Body.command n .vent) c (jacketNumbers.foldl Controller.restartVent c) := by
  refine vents_placing (test := fun c n => (c.jacket n).state == .recovering .restart) (fun c n recovers => if_pos (eq_of_beq recovers))
    (fun c n other => if_neg (ne_of_beq_false other)) (fun c n m apart => ?_) jacketNumbers (by decide) c rest
  rw [offerCommand_otherJacket c .vent apart]

/-- A jacket that recovers from the RESTART has made its VENT (R120). -/
theorem restartVent_commanded (recovers : (c.jacket n).state = .recovering .restart) :
    (jacketNumbers.foldl Controller.restartVent c).Commanded n .vent := by
  obtain ⟨x, before, after⟩ := foldl_at (R := KeepsCommand n .vent) (f := Controller.restartVent) (n := n) (fun _ => .refl)
    KeepsCommand.trans (fun c m _ => by
      unfold Controller.restartVent
      split
      · exact offerVent_keepsCommand c m n
      · exact .refl) c
  have still : (x.jacket n).state = .recovering .restart := by
    rw [before.jackets n]
    exact recovers
  refine after.commanded ?_
  rw [show x.restartVent n = x.offerCommand n .vent from if_pos still]
  exact offerCommand_commanded x n .vent

/-! ### RESTART (R174) -/

theorem restartLine_busy (busy : c.line.state = .running ∨ c.line.state = .stopping) : c.restartLine = .error .lineState := if_pos busy

/-- The part whose VENTs have been offered. -/
def Controller.revented (c : Controller) : Controller := jacketNumbers.foldl Controller.restartVent c.restartBlocks.afterFreeing

theorem restartLine_ok (idle : c.line.state = .stopped ∨ c.line.state = .holding) :
    c.restartLine = .ok (c.revented.offerInfeed .hold .fresh) := if_neg (by rcases idle with e | e <;> rw [e] <;> decide)

/-- The frames a RESTART offers: the VENTs owed, the VENTs made, the INFEED HOLD and the reply. -/
theorem restart_placing (idle : c.line.state = .stopped ∨ c.line.state = .holding) (buffer : c.responder.buffer = .taken) (r : Reply) :
    Placing ((jacketNumbers.filter fun n => (c.jacket n).owedCommand == some .vent).map (fun n => Body.command n .vent) ++
        (jacketNumbers.filter fun n => (c.jacket n).state.pressing).map (fun n => Body.command n .vent) ++ [.infeed .hold, .reply r])
      c.restartBlocks (((c.revented.offerInfeed .hold .fresh).setBuffer (.holding r)).offerReply) := by
  have fresh := restartBlocks_fresh idle buffer
  have judged := judge_placing fresh.rest true
  have arbitrated := arbitrate_placing (fresh.judge true)
  have owing : (jacketNumbers.filter fun n => ((c.restartBlocks.judge true).jacket n).owedCommand == some .vent) =
      jacketNumbers.filter fun n => (c.jacket n).owedCommand == some .vent := by
    refine List.filter_congr fun n _ => ?_
    rw [(judge_onlyPlaces true _).jacket, restartBlocks_jacket, restart_owes]
  rw [owing] at arbitrated
  have freed := judged.trans arbitrated
  rw [List.nil_append] at freed
  have rest := freed.atHold fresh.rest
  have vented := restartVent_placing rest
  have venting : (jacketNumbers.filter fun n => (((c.restartBlocks.judge true).arbitrate).jacket n).state == .recovering .restart) =
      jacketNumbers.filter fun n => (c.jacket n).state.pressing := by
    refine List.filter_congr fun n _ => ?_
    rw [freed.jackets n, restartBlocks_jacket]
    exact restart_vents (c.jacket n)
  rw [venting] at vented
  have held := (freed.trans vented).trans (offerHold_placing _)
  have all := held.trans (offerReply_placing (held.atHold fresh.rest) (r := r))
  have joined (l : List Body) (x y : Body) : l ++ [x] ++ [y] = l ++ [x, y] := List.append_assoc l [x] [y]
  rw [joined] at all
  rw [Controller.revented, Controller.afterFreeing]
  exact all

end Sys2Proof.Machine
end

section
/-! SUPPORT. RESTART: what it leaves of each block (O37, R174). -/
namespace Sys2Proof.Machine

variable {c d t : Controller} {n m : JacketNo} {h : Header}

theorem revented_commanded (idle : c.line.state = .stopped ∨ c.line.state = .holding) (buffer : c.responder.buffer = .taken)
    (pressing : (c.jacket n).state.pressing = true) : c.revented.Commanded n .vent := by
  have fresh := restartBlocks_fresh idle buffer
  have arbitrated := (judge_placing fresh.rest true).trans (arbitrate_placing (fresh.judge true))
  refine restartVent_commanded ?_
  show ((c.restartBlocks.judge true).arbitrate.jacket n).state = _
  rw [arbitrated.jackets n, restartBlocks_jacket]
  exact (restart_spec (c.jacket n)).2.2.1 pressing

theorem placed_commanded (r : Reply) (made : c.Commanded n .vent) :
    (((c.offerInfeed .hold .fresh).setBuffer (.holding r)).offerReply).Commanded n .vent := by
  have infeed : (c.offerInfeed .hold .fresh).Commanded n .vent := (offerInfeed_onlyPlaces c .hold .fresh).keepsCommand.commanded made
  have put : ((c.offerInfeed .hold .fresh).setBuffer (.holding r)).Commanded n .vent := infeed
  exact (offerReply_onlyPlaces _).keepsCommand.commanded put

theorem restart_line (l : LineControl) (idle : l.state = .stopped ∨ l.state = .holding) : l.restart = { l with
    state := if l.state = .holding ∧ (l.causeLineHold = true ∨ l.causeRing = true) then .holding else .stopped
    holdFrom := if l.state = .holding ∧ (l.causeLineHold = true ∨ l.causeRing = true) then .stopped else l.holdFrom } := by
  rw [LineControl.restart]
  by_cases holding : l.state = .holding
  · by_cases cause : l.causeLineHold = true ∨ l.causeRing = true
    · rw [if_pos holding, if_pos cause, if_pos ⟨holding, cause⟩, if_pos ⟨holding, cause⟩, ← holding]
    · rw [if_pos holding, if_neg cause, if_neg fun both => cause both.2, if_neg fun both => cause both.2]
  · rw [if_neg holding, if_neg fun both => holding both.1, if_neg fun both => holding both.1, ← idle.resolve_right holding]

theorem outRestart_eq (e : OutEntry) : e.restart = { e with owner := match e.owner with
    | .record _ | .infeed | .notice _ | .reply => .lost
    | kept => kept } := by
  obtain ⟨sequence, start, body, destination, owner, stands⟩ := e
  cases owner <;> rfl

theorem normals_vents (l : List QueueEntry) (vents : ∀ e ∈ l, e.isVent = true) : normalCount l = 0 := by
  refine List.countP_eq_zero.mpr fun e member => ?_
  have vent := vents e member
  rw [QueueEntry.isVent] at vent
  split at vent
  · next body =>
    rw [body]
    exact Bool.false_ne_true
  · cases vent

theorem normals_map_vents (l : List JacketNo) : normals (l.map fun n => Body.command n .vent) = 0 := by
  refine List.countP_eq_zero.mpr fun b member => ?_
  obtain ⟨n, -, rfl⟩ := List.mem_map.mp member
  exact Bool.false_ne_true

/-- An accepted command that is not SET NOTICE ENABLES: its action, and then the offer of its reply (R181). -/
theorem exec_commandDone {s : State} {i : Instr} {code : Nat} {fields : List Byte} {x : Except Reason Controller}
    (run : exec i s = .next (s.withPart (s.part.receiveFrame (manageFrame h (3 :: fields)))))
    (takes : s.part.Takes h (3 :: fields).length)
    (answer : (s.part.taken (manageFrame h (3 :: fields)).markTaken.wire).judgeRequest (3 :: fields) =
      (s.part.taken (manageFrame h (3 :: fields)).markTaken.wire).commandAnswer code x)
    (ok : x = .ok d) (other : (3 :: fields : List Byte).take 2 ≠ [3, 11]) : ∃ t, exec i s = .next (s.withPart t) ∧
      t = (d.setBuffer (.holding (replyTo h 3 none (field1 code)))).offerReply ∧ t.Replied (replyTo h 3 none (field1 code)) := by
  have answer := answer.trans (commandAnswer_ok code ok)
  obtain ⟨t, run, made, -, replied⟩ := exec_answered run takes answer
  rw [request_offersReply answer (decide_eq_false other)] at made
  exact ⟨t, run, made, replied⟩

/-- Settles O37: the blocks by their definition, the queue by the frames that are placed in it. -/
theorem restartClears : Obligations.RestartClears := by
  refine fun s h takes => ⟨fun idle => ?_, fun busy => ?_⟩
  all_goals let taken := s.part.taken (manageFrame h [3, 4]).markTaken.wire
  all_goals have asked : taken.judgeRequest [3, 4] = taken.commandAnswer 4 taken.restartLine := rfl
  · have ok : taken.restartLine = .ok (taken.revented.offerInfeed .hold .fresh) := restartLine_ok idle
    obtain ⟨t, run, made, replied⟩ := exec_commandDone (i := .restart h []) rfl takes asked ok (by decide)
    rw [show field1 4 = [4] from rfl] at made replied
    have placing := restart_placing (c := taken) idle rfl (replyTo h 3 none [4])
    rw [← made] at placing
    have jackets (n : JacketNo) : t.jacket n = { (s.part.jacket n).restart with owedCommand := (t.jacket n).owedCommand } :=
      (placing.jackets n).trans (by rw [restartBlocks_jacket]; rfl)
    have notices (cls : NoticeClass) : t.notice cls = (s.part.notice cls).restart := by
      rw [Controller.notice, placing.notices]
      exact restartBlocks_notice taken cls
    refine ⟨t, run, placing.records, placing.value, placing.frozen, placing.tables, placing.verification,
      placing.line.trans (restart_line s.part.line idle), fun n pressing => ?_, fun n calm => ?_, fun cls => ?_, ?_, ?_, ?_⟩
    · obtain ⟨-, slot, pressed, -⟩ := restart_spec (s.part.jacket n)
      refine ⟨by rw [jackets n]; exact pressed pressing, by rw [jackets n]; exact slot, ?_⟩
      rw [made]
      exact placed_commanded _ (revented_commanded (c := taken) idle rfl pressing)
    · obtain ⟨-, slot, -, calmed⟩ := restart_spec (s.part.jacket n)
      obtain ⟨state, awaited, loaded⟩ := calmed calm
      rw [jackets n]
      exact ⟨state, awaited, loaded, slot⟩
    · rw [notices cls]
      exact ⟨rfl, rfl⟩
    · intro vents vent owing venting last
      obtain ⟨frames, queue, sub, exactly⟩ := placing.queue
      refine ⟨frames, queue, sub, fun none short => ?_⟩
      have few : normalCount taken.restartBlocks.ring.queue = 0 := normals_vents _ fun e member => (List.mem_filter.mp member).2
      have long : taken.restartBlocks.ring.queue.length = vents.length := rfl
      have all := exactly ?_ ?_
      · refine all.trans ?_
        show owing.map vent ++ venting.map vent ++ last = _
        rw [none]
        rfl
      · show taken.restartBlocks.ring.queue.length + (owing.map vent ++ venting.map vent ++ last).length ≤ 16
        rw [none, long, List.length_append, List.length_append, List.length_map]
        exact le_trans (by simp [last]; omega) short
      · show normalCount taken.restartBlocks.ring.queue + normals (owing.map vent ++ venting.map vent ++ last) ≤ 12
        rw [few, normals, List.countP_append, List.countP_append]
        have first : (owing.map vent).countP (fun b => !b.urgent) = 0 := normals_map_vents owing
        have second : (venting.map vent).countP (fun b => !b.urgent) = 0 := normals_map_vents venting
        have third : last.countP (fun b => !b.urgent) = 1 := rfl
        rw [first, second, third]
        decide
    · have out : t.ring.outstanding = s.part.ring.outstanding.map OutEntry.restart := by
        rw [placing.ring]
        rfl
      rw [out]
      exact List.map_congr_left fun e _ => outRestart_eq e
    · rw [placing.ring]
      exact ⟨rfl, rfl, rfl, rfl, rfl, rfl, replied⟩
  · exact exec_refused (i := .restart h []) rfl takes asked (restartLine_busy (c := taken) busy)

end Sys2Proof.Machine
end

section
/-! SUPPORT. The outcomes of the part's own frames and the entry to HOLDING touch no calibration: the verification fields change at an evaluation,
at a SET DATE and at a RESTART alone. -/
namespace Sys2Proof.Machine

variable {c d : Controller}

theorem removeWith_verification {arb : Controller → Controller} (ha : ∀ c, Serves c (arb c)) (slot : Nat) (c : Controller) :
    (Controller.removeWith arb slot c).verification = c.verification := by
  unfold Controller.removeWith
  dsimp only
  exact ((finishDrain_serves _).verification.trans (judge_serves _ _).verification).trans (withdrawLoop_serves ha _ _ _).verification

theorem askRelease_verification (c : Controller) (slot : Nat) : (c.askRelease slot).verification = c.verification := by
  unfold Controller.askRelease
  split
  · rfl
  · split
    · rfl
    · exact removeWith_verification arbitrate_serves slot c

theorem assign_verification (c : Controller) (r : Record) (n : JacketNo) : (c.assign r n).verification = c.verification :=
  (makeOrders_serves _ _ _).verification

theorem programFault_verification (c : Controller) (r : Record) : (c.programFault r).verification = c.verification :=
  (raise_serves _ _ _ _).verification.trans (makeOrders_serves _ _ _).verification

theorem jacketPass_verification (c : Controller) (n : JacketNo) : (c.jacketPass n).verification = c.verification := by
  have depth (k : Nat) (c : Controller) : (Controller.jacketPassDepth k c n).verification = c.verification := by
    induction k generalizing c with
    | zero => rfl
    | succ k ih =>
      unfold Controller.jacketPassDepth
      split
      · rfl
      · split
        · exact assign_verification _ _ _
        · exact (ih _).trans (programFault_verification _ _)
  unfold Controller.jacketPass
  split
  · exact depth _ c
  · rfl

theorem holdServed_verification (c : Controller) (n : JacketNo) : (c.holdServed n).verification = c.verification := by
  unfold Controller.holdServed
  split
  · rfl
  · exact (raise_serves _ _ _ _).verification.trans (holdRecord_verification _ _ _)

theorem faultJacket_verification (c : Controller) (n : JacketNo) (cause : FaultCause) :
    (c.faultJacket n cause).verification = c.verification := by
  unfold Controller.faultJacket
  dsimp only
  split
  · rfl
  · refine (raise_serves _ _ _ _).verification.trans ((dropStale_serves _ n).verification.trans ?_)
    split
    · exact (makeVent_serves _ n).verification.trans (holdServed_verification _ n)
    · exact holdServed_verification _ n

theorem orderLost_verification (c : Controller) (r : Record) (b : Body) : (c.orderLost r b).verification = c.verification :=
  (raise_serves _ _ _ _).verification.trans (holdRecord_verification _ _ _)

theorem freeAwaiting_verification (c : Controller) (n : JacketNo) : (c.freeAwaiting n).verification = c.verification := by
  unfold Controller.freeAwaiting
  split <;> rfl

theorem jacketGateLost_verification (c : Controller) (r : Record) (n : JacketNo) :
    (c.jacketGateLost r n).verification = c.verification :=
  calc (c.jacketGateLost r n).verification
      = (((c.holdRecord r.slot .undelivered).freeAwaiting n).raise .undelivered r.serial _).verification := jacketPass_verification _ _
    _ = ((c.holdRecord r.slot .undelivered).freeAwaiting n).verification := (raise_serves _ _ _ _).verification
    _ = (c.holdRecord r.slot .undelivered).verification := freeAwaiting_verification _ _
    _ = c.verification := holdRecord_verification _ _ _

theorem orderOutcome_verification (c : Controller) (r : Record) (b : Body) (delivered : Bool) :
    (c.orderOutcome r b delivered).verification = c.verification := by
  unfold Controller.orderOutcome
  split
  · split
    · rfl
    · exact jacketGateLost_verification _ _ _
  iterate 4
    · split
      · rfl
      · exact orderLost_verification _ _ _
  · split
    · exact askRelease_verification _ _
    · exact orderLost_verification _ _ _
  · rfl

theorem recordOutcome_verification (c : Controller) (slot : Nat) (e : OutEntry) (delivered : Bool) :
    (c.recordOutcome slot e delivered).verification = c.verification := by
  unfold Controller.recordOutcome
  split
  · rfl
  · split
    · split
      · rfl
      · exact (raise_serves _ _ _ _).verification
    · split
      · exact orderOutcome_verification _ _ _ _
      · rfl

theorem infeedLost_verification (c : Controller) (o : InfeedOrder) : (c.infeedLost o).verification = c.verification := by
  unfold Controller.infeedLost
  dsimp only
  split
  · exact (offerInfeed_onlyPlaces _ _ _).verification.trans (raise_serves _ _ _ _).verification
  · exact (raise_serves _ _ _ _).verification

theorem commandLost_verification (c : Controller) (n : JacketNo) : (c.commandLost n).verification = c.verification := by
  unfold Controller.commandLost
  split
  iterate 4 exact faultJacket_verification _ _ _
  iterate 4 rfl

theorem outcome_verification (c : Controller) (e : OutEntry) (delivered : Bool) : (c.outcome e delivered).verification = c.verification := by
  unfold Controller.outcome
  split
  · exact recordOutcome_verification _ _ _ _
  · split
    · rfl
    · exact commandLost_verification _ _
  · split
    · split
      · rfl
      · exact infeedLost_verification _ _
    · rfl
  · split
    · rfl
    · exact (raise_serves _ _ _ _).verification
  all_goals rfl

theorem flushOutstanding_verification (c : Controller) : c.flushOutstanding.verification = c.verification := by
  have popped (c : Controller) : (c.popOldest false).verification = c.verification := by
    unfold Controller.popOldest
    split
    · rfl
    · exact outcome_verification _ _ _
  have lost (n : Nat) (c : Controller) : (Controller.popLost n c).verification = c.verification := by
    induction n generalizing c with
    | zero => rfl
    | succ n ih => exact (ih _).trans (popped c)
  exact lost _ c

theorem setCause_verification (c : Controller) (cause : HoldCause) (present : Bool) :
    (c.setCause cause present).verification = c.verification := by cases cause <;> rfl

theorem addCause_verification (c : Controller) (cause : HoldCause) : (c.addCause cause).verification = c.verification := by
  have held (l : List JacketNo) (c : Controller) : (l.foldl Controller.jacketHold c).verification = c.verification := by
    induction l generalizing c with
    | nil => rfl
    | cons n l ih => exact (ih _).trans (jacketHold_store c n)
  unfold Controller.addCause
  split
  · exact setCause_verification _ _ _
  · rw [enterHolding_eq]
    refine (raise_serves _ _ _ _).verification.trans ((judge_serves _ _).verification.trans ((held _ _).trans ?_))
    refine (purge_serves _).verification.trans ?_
    rw [holdBegun_eq]

theorem transmit_verification (c : Controller) : c.transmit.verification = c.verification := by
  have own (e : QueueEntry) : (c.startOwn e).verification = c.verification := (afterFreeing_serves _).verification
  unfold Controller.transmit
  split
  · rfl
  · split
    · rfl
    · exact own _
    · rfl
    · split
      · exact own _
      · rfl

theorem ringGoesDown_verification (c : Controller) : c.ringGoesDown.verification = c.verification := by
  unfold Controller.ringGoesDown
  dsimp only
  split
  · rfl
  · exact (flushOutstanding_verification _).trans (addCause_verification (c.setRingStatus .down) _)

theorem ringGoesUp_verification (c : Controller) : c.ringGoesUp.verification = c.verification := by
  unfold Controller.ringGoesUp
  dsimp only
  split
  · rfl
  · exact (raise_serves _ _ _ _).verification.trans (setCause_verification (c.setRingStatus .up) _ _)

end Sys2Proof.Machine
end

section
/-! SUPPORT. The line under a report, a timer's command and a return: the same, or drained to STOPPED with the register's last record gone (R58). -/
namespace Sys2Proof.Machine

variable {a b c d : Controller}

/-- The line is the same or has drained, and an empty register stays empty. -/
structure Ends (c d : Controller) : Prop where
  line : Drains c d
  empty : c.records = [] → d.records = []

theorem Ends.of_same (line : d.line = c.line) (records : d.records = c.records) : Ends c d := ⟨.inl line, records.trans⟩

theorem Ends.refl : Ends c c := .of_same rfl rfl

theorem Ends.trans (h : Ends a b) (k : Ends b c) : Ends a c where
  empty none := k.empty (h.empty none)
  line := by
    rcases k.line with same | ⟨stopping, stopped, none⟩
    · rcases h.line with before | ⟨stopping, stopped, none⟩
      · exact .inl (same.trans before)
      · exact .inr ⟨stopping, same.trans stopped, k.empty none⟩
    · rcases h.line with before | ⟨-, ended, -⟩
      · exact .inr ⟨by rw [← before]; exact stopping, by rw [stopped, before], none⟩
      · rw [ended] at stopping
        cases stopping

theorem Change.ends (h : Change a b) : Ends a b := by
  cases h with
  | drained h => exact ⟨.inr ⟨h.1, rfl, h.2⟩, id⟩
  | record slot f => exact ⟨.inl rfl, fun none => by simp [Controller.updRecord, none]⟩
  | drop slot => exact ⟨.inl rfl, fun none => by simp [none]⟩
  | _ => exact .of_same rfl rfl

theorem Changes.ends (h : Changes a b) : Ends a b := by
  induction h with
  | refl => exact .refl
  | tail _ k ih => exact ih.trans k.ends

theorem Settles.ends (h : Settles a b) : Ends a b := h.changes.ends

theorem ite_ends {p : Prop} [Decidable p] (h : Ends c d) : Ends c (if p then d else c) := by
  split
  · exact h
  · exact .refl

theorem popOldest_ends (c : Controller) (delivered : Bool) : Ends c (c.popOldest delivered) := by
  unfold Controller.popOldest
  split
  · exact .refl
  · next rest _ => exact Ends.trans (b := c.setOutstanding rest) (.of_same rfl rfl) (outcome_settles _ _ _).ends

theorem popLost_ends (n : Nat) (c : Controller) : Ends c (Controller.popLost n c) := by
  induction n generalizing c with
  | zero => exact .refl
  | succ n ih => exact (popOldest_ends c false).trans (ih _)

theorem matchReturn_ends (c : Controller) (sequence : Nat) (taken : Bool) : Ends c (c.matchReturn sequence taken) := by
  unfold Controller.matchReturn
  split
  · exact .refl
  · exact (popLost_ends _ _).trans (popOldest_ends _ _)

theorem expire_ends (c : Controller) : Ends c c.expire := by
  have depth (n : Nat) (c : Controller) : Ends c (Controller.expireDepth n c) := by
    induction n generalizing c with
    | zero => exact .refl
    | succ n ih =>
      unfold Controller.expireDepth
      split
      · exact .refl
      · split
        · exact (popOldest_ends c false).trans (ih _)
        · exact .refl
  exact depth _ c

/-- An entry tag, admitting or not, leaves the line alone. -/
theorem takeTag_line (c : Controller) (tag : EntryTag) : (c.takeTag tag).line = c.line := by
  have gate (lane : GateDest) : (c.gateOnly tag.serial lane).line = c.line := (judge_onlyPlaces _ _).line
  unfold Controller.takeTag
  split
  · split
    · exact gate _
    · exact (raise_onlyPlaces _ _ _ _).line.trans (gate _)
    · exact (judge_onlyPlaces _ _).line
  · exact (judge_onlyPlaces _ _).line

/-- A report leaves the line alone, or its drain ends (R5, R58). -/
theorem classify_drains (c : Controller) (source kind : Nat) (p : List Byte) : Drains c (c.classify source kind p) := by
  unfold Controller.classify
  split
  · split
    · exact .inl (takeTag_line _ _)
    · exact (stray_settles _ _ _ _).ends.line
  · split
    · exact (takeMass_settles _ _ _).ends.line
    · exact (stray_settles _ _ _ _).ends.line
  · split
    · exact (takeFindings_settles _ _ _).ends.line
    · exact (stray_settles _ _ _ _).ends.line
  · split
    · exact (takeStamp_settles _ _ _ _).ends.line
    · exact (stray_settles _ _ _ _).ends.line
  · split
    · exact (takeScrap_settles _ _ _).ends.line
    · exact (stray_settles _ _ _ _).ends.line
  · exact (jacketReport_settles _ _ _ _).ends.line
  · exact .inl rfl

/-! ### What a report, a timer's command and a return leave alone -/

/-- What neither a report nor a timer's command nor a return writes: the line but for the end of a drain, the tables, the frozen views, and of the
Ring Port all but its lists. -/
def LeavesAlone (c d : Controller) : Prop :=
  d.tables = c.tables ∧ d.line.date = c.line.date ∧ d.line.items = c.line.items ∧ d.line.holdFrom = c.line.holdFrom ∧
    d.line.causeLineHold = c.line.causeLineHold ∧ d.line.causeRing = c.line.causeRing ∧
    (d.line.state = c.line.state ∨ (c.line.state = .stopping ∧ d.line.state = .stopped ∧ d.records = [])) ∧
    d.ring.nodeAddress = c.ring.nodeAddress ∧ d.ring.status = c.ring.status ∧ d.ring.locked = c.ring.locked ∧
    d.ring.lockCount = c.ring.lockCount ∧ d.ring.clock = c.ring.clock ∧ d.ring.transmitter = c.ring.transmitter ∧
    d.ring.sequence = c.ring.sequence ∧ d.ring.streak = c.ring.streak ∧ d.responder.frozen = c.responder.frozen

theorem leavesAlone_of (kept : Kept c d) (line : Drains c d) : LeavesAlone c d := by
  obtain ⟨⟨tables, date, items⟩, port, frozen⟩ := kept
  refine ⟨tables, date, items, ?_, ?_, ?_, ?_, port.nodeAddress, port.status, port.locked, port.lockCount, port.clock, port.transmitter,
    port.sequence, port.streak, frozen⟩
  all_goals rcases line with same | ⟨stopping, stopped, none⟩
  any_goals rw [same]
  any_goals rw [stopped]
  · exact .inl rfl
  · exact .inr ⟨stopping, rfl, none⟩

theorem LeavesAlone.refl : LeavesAlone c c := leavesAlone_of .refl (.inl rfl)

/-- A frame placed in the forward buffer touches nothing else. -/
theorem LeavesAlone.after_forward {bytes : List Byte} (h : LeavesAlone (c.placeForward bytes) d) : LeavesAlone c d := h

/-- What a report's frame adds to the forward buffer: nothing or itself. -/
def ForwardsAtMost (c : Controller) (bytes : List Byte) (d : Controller) : Prop :=
  d.ring.forward = c.ring.forward ∨ d.ring.forward = c.ring.forward ++ [bytes]

theorem placeForward_forwards (c : Controller) (bytes : List Byte) : ForwardsAtMost c bytes (c.placeForward bytes) := .inr rfl

theorem bypassFrame_alone (c : Controller) (bytes : List Byte) :
    LeavesAlone c (c.bypassFrame bytes) ∧ ForwardsAtMost c bytes (c.bypassFrame bytes) := by
  unfold Controller.bypassFrame
  split
  · exact ⟨LeavesAlone.after_forward (bytes := bytes) .refl, placeForward_forwards _ _⟩
  · exact ⟨.refl, .inl rfl⟩

theorem matchReturn_alone (c : Controller) (sequence : Nat) (taken : Bool) :
    LeavesAlone c (c.matchReturn sequence taken) ∧ (c.matchReturn sequence taken).ring.forward = c.ring.forward :=
  ⟨leavesAlone_of (matchReturn_kept _ _ _) (matchReturn_ends _ _ _).line, (matchReturn_kept _ _ _).port.forward⟩

/-- A frame of a report kind reaches the classifier, never the Management Responder (R4, R5). -/
theorem receiveFrame_alone (c : Controller) (f : Frame) (report : f.kind.toNat ≠ manageKind) :
    LeavesAlone c (c.receiveFrame f) ∧ ForwardsAtMost c f.wire (c.receiveFrame f) := by
  have passed : LeavesAlone c (c.passOn f) ∧ ForwardsAtMost c f.wire (c.passOn f) := by
    unfold Controller.passOn
    split
    · exact ⟨.refl, .inl rfl⟩
    · split
      · next request =>
        unfold Controller.isRequest at request
        rw [Bool.and_eq_true, beq_iff_eq, beq_iff_eq] at request
        exact absurd request.2 report
      · have kept := classify_kept (c.placeForward f.wire) f.header.source.toNat f.kind.toNat f.payload
        exact ⟨(leavesAlone_of kept (classify_drains _ _ _ _)).after_forward, .inr kept.port.forward⟩
  unfold Controller.receiveFrame
  split
  · exact bypassFrame_alone c f.wire
  · split
    · exact ⟨.refl, .inl rfl⟩
    · unfold Controller.accept
      split
      · exact ⟨(matchReturn_alone _ _ _).1, .inl (matchReturn_alone _ _ _).2⟩
      · exact passed

/-- The command of one of the eight report rows. -/
theorem report_alone {i : Instr} {kind : Byte} {h : Header} {p : List Byte} {s t : State}
    (row : (i = .entryTag h p ∧ kind = 1) ∨ (i = .massReading h p ∧ kind = 2) ∨ (i = .visualFindings h p ∧ kind = 3) ∨
      (i = .jacketArrival h p ∧ kind = 4) ∨ (i = .jacketSample h p ∧ kind = 5) ∨ (i = .jacketClear h p ∧ kind = 6) ∨
      (i = .stampReport h p ∧ kind = 7) ∨ (i = .scrapReport h p ∧ kind = 8))
    (run : exec i s = .next t) :
    LeavesAlone s.part t.part ∧ ForwardsAtMost s.part ({ header := h, kind, payload := p } : Frame).wire t.part := by
  have received : exec i s = .next (s.withPart (s.part.receiveFrame { header := h, kind, payload := p })) ∧ kind.toNat ≠ manageKind := by
    rcases row with ⟨rfl, rfl⟩ | ⟨rfl, rfl⟩ | ⟨rfl, rfl⟩ | ⟨rfl, rfl⟩ | ⟨rfl, rfl⟩ | ⟨rfl, rfl⟩ | ⟨rfl, rfl⟩ | ⟨rfl, rfl⟩ <;>
      exact ⟨rfl, by decide⟩
  rw [← Host.Outcome.next.inj (received.1.symm.trans run)]
  exact receiveFrame_alone s.part _ received.2

/-- A change that settles, made or not. -/
theorem settled_alone {p : Prop} [Decidable p] (h : Settles c d) :
    LeavesAlone c (if p then d else c) ∧ (if p then d else c).ring.forward = c.ring.forward :=
  ⟨leavesAlone_of (ite_kept h.kept) (ite_ends h.ends).line, (ite_kept h.kept).port.forward⟩

/-- The return timeout and the timers of the jackets. -/
theorem timer_alone {i : Instr} {n : JacketNo} {s t : State}
    (timer : i = .returnTimeout ∨ i = .blockTimeLimit n ∨ i = .dwellEnd n ∨ i = .sampleAgeLimit n ∨ i = .ventLimit n)
    (run : exec i s = .next t) : LeavesAlone s.part t.part ∧ t.part.ring.forward = s.part.ring.forward := by
  rcases timer with rfl | rfl | rfl | rfl | rfl
  all_goals rw [← Host.Outcome.next.inj run]
  · exact ⟨leavesAlone_of (expire_kept _) (expire_ends _).line, (expire_kept _).port.forward⟩
  · exact settled_alone (earlyEnd_settles _ _ _)
  · exact settled_alone (completeBlock_settles _ _)
  · exact settled_alone (faultJacket_settles _ _ _)
  · exact settled_alone (faultJacket_settles _ _ _)

/-- A return outside bypass is stripped and matched, whatever its length (R1, R2, R11). -/
theorem return_alone {destination kind sequence trailer : Byte} {p : List Byte} {s t : State} (inService : s.part.bypass = false)
    (run : exec (.returnMatching destination kind sequence p trailer) s = .next t) :
    LeavesAlone s.part t.part ∧ t.part.ring.forward = s.part.ring.forward := by
  by_cases short : p.length ≤ 200
  · rw [exec_returnMatching inService short] at run
    rw [← Host.Outcome.next.inj run]
    exact matchReturn_alone _ _ _
  · rw [← Host.Outcome.next.inj run]
    have dropped : s.part.receiveFrame
        { header := { destination, source := s.part.ring.nodeAddress.setWidth 8, sequence, trailer }, kind, payload := p } = s.part := by
      unfold Controller.receiveFrame
      rw [if_neg (ne_true_of_eq_false inService)]
      exact if_pos (Nat.lt_of_not_le short)
    show LeavesAlone s.part (s.part.receiveFrame _) ∧ (s.part.receiveFrame _).ring.forward = s.part.ring.forward
    rw [dropped]
    exact ⟨.refl, rfl⟩

end Sys2Proof.Machine
end

section
/-! SUPPORT. What only one command changes: the ring status, the receiver's lock, the transmitter, and the tables, the plant date and the items. -/
namespace Sys2Proof.Machine

variable {c d : Controller} {i : Instr}

/-- What each command other than POWER_ON leaves of the Ring Port outside its lists. -/
def PortLeft (i : Instr) (c d : Controller) : Prop :=
  d.ring.nodeAddress = c.ring.nodeAddress ∧ d.ring.clock = c.ring.clock ∧
    ((i ≠ .transmitterStart ∧ i ≠ .transmissionComplete) →
      d.ring.transmitter = c.ring.transmitter ∧ d.ring.sequence = c.ring.sequence ∧ d.ring.streak = c.ring.streak) ∧
    ((i ≠ .ringDown ∧ i ≠ .ringUp) → d.ring.status = c.ring.status) ∧
    ((i ≠ .rxLockLost ∧ i ≠ .rxLockRegained) → d.ring.locked = c.ring.locked ∧ d.ring.lockCount = c.ring.lockCount)

theorem ReceiverKept.left (h : ReceiverKept c d) : PortLeft i c d := by
  unfold ReceiverKept at h
  rw [PortLeft, h]
  exact ⟨rfl, rfl, fun _ => ⟨rfl, rfl, rfl⟩, fun _ => rfl, fun _ => ⟨rfl, rfl⟩⟩

theorem Kept.left (h : Kept c d) : PortLeft i c d := h.port.receiver.left

/-- What follows a change of the ring status alone leaves the rest of the port. -/
theorem Kept.left_status {status : RingStatus} (h : Kept (c.setRingStatus status) d) (ring : ¬ (i ≠ .ringDown ∧ i ≠ .ringUp)) :
    PortLeft i c d :=
  ⟨h.port.nodeAddress, h.port.clock, fun _ => ⟨h.port.transmitter, h.port.sequence, h.port.streak⟩, fun other => absurd other ring,
    fun _ => ⟨h.port.locked, h.port.lockCount⟩⟩

theorem setLock_left (locked : Bool) (lock : ¬ (i ≠ .rxLockLost ∧ i ≠ .rxLockRegained)) : PortLeft i c (c.setLock locked) := by
  rw [PortLeft, setLock_eq]
  exact ⟨rfl, rfl, fun _ => ⟨rfl, rfl, rfl⟩, fun _ => rfl, fun other => absurd other lock⟩

theorem TransmitterOnly.left (h : TransmitterOnly c d) (sends : ¬ (i ≠ .transmitterStart ∧ i ≠ .transmissionComplete)) : PortLeft i c d := by
  unfold TransmitterOnly at h
  rw [PortLeft, h]
  exact ⟨rfl, rfl, fun other => absurd other sends, fun _ => rfl, fun _ => ⟨rfl, rfl⟩⟩

theorem completeTransmission_left : PortLeft .transmissionComplete c c.completeTransmission := by
  rw [PortLeft, completeTransmission_eq]
  exact ⟨rfl, rfl, fun other => absurd rfl other.2, fun _ => rfl, fun _ => ⟨rfl, rfl⟩⟩

theorem Effect.left (e : Effect c i d) : PortLeft i c d := by
  cases e with
  | frame f => exact (receiveFrame_receiver _ _).left
  | discarded b => exact (receiveBytes_receiver _ _).left
  | forwarded b => exact (receiveBytes_receiver _ _).left
  | hold => exact (either_kept .refl (addCause_kept _ _)).left
  | unhold => exact (either_kept .refl (setCause_kept _ _ _)).left
  | lockLost => exact setLock_left _ fun other => other.1 rfl
  | lockRegained => exact setLock_left _ fun other => other.2 rfl
  | ringDown =>
    split
    · exact (ringGoesDown_kept c).left_status fun other => other.1 rfl
    · exact Kept.refl.left
  | ringUp =>
    split
    · exact (ringGoesUp_kept c).left_status fun other => other.2 rfl
    · exact Kept.refl.left
  | start => exact (transmit_writes _).1.left fun other => other.1 rfl
  | complete => exact completeTransmission_left
  | expire => exact (expire_kept _).left
  | timeLimit n => exact (ite_kept (earlyEnd_settles _ _ _).kept).left
  | dwellEnd n => exact (ite_kept (completeBlock_settles _ _).kept).left
  | silent n => exact (ite_kept (faultJacket_settles _ _ _).kept).left
  | ventLimit n => exact (ite_kept (faultJacket_settles _ _ _).kept).left

/-! ### The commands of the hold line, the ring and the transmitter -/

/-- What a command that carries no frame and belongs to the pins or the port leaves of the stores. -/
def StoresLeft (c d : Controller) : Prop :=
  d.tables = c.tables ∧ d.line.date = c.line.date ∧ d.line.items = c.line.items ∧ d.verification = c.verification ∧
    d.responder.frozen = c.responder.frozen

theorem storesLeft_of (store : StoreKept c d) (verification : d.verification = c.verification)
    (frozen : d.responder.frozen = c.responder.frozen) : StoresLeft c d :=
  ⟨store.tables, store.date, store.items, verification, frozen⟩

theorem StoresLeft.refl : StoresLeft c c := storesLeft_of .refl rfl rfl

/-- The commands of the hold line, the receiver's lock, the ring status and the transmitter. -/
def OfPort (i : Instr) : Prop :=
  i = .holdAsserted ∨ i = .holdReleased ∨ i = .rxLockLost ∨ i = .rxLockRegained ∨ i = .ringDown ∨ i = .ringUp ∨
    i = .transmitterStart ∨ i = .transmissionComplete

theorem exec_ofPort_stores {s t : State} (port : OfPort i) (run : exec i s = .next t) : StoresLeft s.part t.part := by
  rcases port with rfl | rfl | rfl | rfl | rfl | rfl | rfl | rfl
  all_goals rw [← Host.Outcome.next.inj run]
  · show StoresLeft s.part (if s.part.bypass then s.part else s.part.addCause .lineHold)
    split
    · exact .refl
    · exact storesLeft_of (addCause_kept _ _).store (addCause_verification _ _) (addCause_kept _ _).frozen
  · show StoresLeft s.part (if s.part.bypass then s.part else s.part.setCause .lineHold false)
    split
    · exact .refl
    · exact .refl (c := s.part)
  · show StoresLeft s.part (s.part.setLock false)
    rw [setLock_eq]
    exact .refl (c := s.part)
  · show StoresLeft s.part (s.part.setLock true)
    rw [setLock_eq]
    exact .refl (c := s.part)
  · show StoresLeft s.part (if s.part.lossReached then s.part.ringGoesDown else s.part)
    split
    · have kept := ringGoesDown_kept s.part
      exact storesLeft_of ⟨kept.store.tables, kept.store.date, kept.store.items⟩ (ringGoesDown_verification _) kept.frozen
    · exact .refl
  · show StoresLeft s.part (if s.part.lockReached then s.part.ringGoesUp else s.part)
    split
    · have kept := ringGoesUp_kept s.part
      exact storesLeft_of ⟨kept.store.tables, kept.store.date, kept.store.items⟩ (ringGoesUp_verification _) kept.frozen
    · exact .refl
  · obtain ⟨-, store, frozen⟩ := transmit_writes s.part
    exact storesLeft_of store (transmit_verification _) frozen
  · show StoresLeft s.part s.part.completeTransmission
    rw [completeTransmission_eq]
    exact .refl (c := s.part)

/-! ### The COMMANDs that write no store -/

/-- A COMMAND other than SET DATE and SET CONFIG, taken or refused, writes no table, date or item. -/
theorem request_store {code : Byte} {p : List Byte} (notDate : code.toNat ≠ 5) (notConfig : code.toNat ≠ 6) (c : Controller) (source : Nat) :
    StoreKept c (c.request source (3 :: code :: p)) := by
  have acted : StoreKept c (c.judgeRequest (3 :: code :: p)).part := by
    show StoreKept c (c.commandAnswer code.toNat (c.commandAction code.toNat p)).part
    unfold Controller.commandAnswer
    split
    · next done => exact (commandAction_kept done notDate notConfig).store
    · exact .refl
  exact acted.trans (request_kept c source _).store

theorem placeForward_store (c : Controller) (bytes : List Byte) : StoreKept c (c.placeForward bytes) := ⟨rfl, rfl, rfl⟩

/-- Whatever becomes of the frame that carries it: passed on in bypass, dropped, matched as a return, taken or not. -/
theorem receiveFrame_store {h : Header} {code : Byte} {p : List Byte} (notDate : code.toNat ≠ 5) (notConfig : code.toNat ≠ 6) (c : Controller) :
    StoreKept c (c.receiveFrame (manageFrame h (3 :: code :: p))) := by
  unfold Controller.receiveFrame
  split
  · unfold Controller.bypassFrame
    split
    · exact placeForward_store _ _
    · exact .refl
  · split
    · exact .refl
    · unfold Controller.accept
      split
      · exact (matchReturn_kept _ _ _).store
      · unfold Controller.passOn
        split
        · exact .refl
        · split
          · split
            · have taken : StoreKept c ((c.placeForward (manageFrame h (3 :: code :: p)).markTaken.wire).setBuffer .taken) :=
                ⟨rfl, rfl, rfl⟩
              exact taken.trans (request_store notDate notConfig _ _)
            · exact placeForward_store _ _
          · exact (placeForward_store _ _).trans (classify_kept _ _ _ _).store

/-- The COMMANDs other than SET DATE and SET CONFIG. -/
theorem exec_command_store {h : Header} {p : List Byte} {s t : State}
    (row : i = .start h p ∨ i = .stop h p ∨ i = .resume h p ∨ i = .restart h p ∨ i = .jacketEnable h p ∨ i = .jacketDisable h p ∨
      i = .jacketAbort h p ∨ i = .release h p ∨ i = .setNoticeEnables h p ∨ i = .testNotice h p)
    (run : exec i s = .next t) : StoreKept s.part t.part := by
  have carried : ∃ code : Byte, code.toNat ≠ 5 ∧ code.toNat ≠ 6 ∧
      exec i s = .next (s.withPart (s.part.receiveFrame (manageFrame h (3 :: code :: p)))) := by
    rcases row with rfl | rfl | rfl | rfl | rfl | rfl | rfl | rfl | rfl | rfl <;> exact ⟨_, by decide, by decide, rfl⟩
  obtain ⟨code, notDate, notConfig, answer⟩ := carried
  rw [← Host.Outcome.next.inj (answer.symm.trans run)]
  exact receiveFrame_store notDate notConfig s.part

/-- Settles O52: a report, a timer's command and a return reach the line, the records, the jackets and the port's lists alone; and the ring status,
the lock and the transmitter are each written by their own commands. -/
theorem whatCommandsLeaveAlone : Obligations.WhatCommandsLeaveAlone := by
  refine ⟨fun s t h p n => ⟨fun i kind row run => report_alone row run, fun i timer run => timer_alone timer run,
    fun _ _ _ _ inService run => return_alone inService run⟩, fun i s t run power => ?_⟩
  obtain ⟨address, clock, transmitter, status, lock⟩ := (effect_of_exec run power).left
  refine ⟨address, clock, transmitter, status, lock, fun port => exec_ofPort_stores port run, fun h p row => ?_⟩
  have store := exec_command_store row run
  exact ⟨store.tables, store.date, store.items⟩

end Sys2Proof.Machine
end
